-- ==== Sys2Proof/Word.lean ====
section
/-! DEFINITION. The word types that travel on NUMCORE's ports (10_state.md R21, R22, R28; 00_scope.md R9). -/

namespace Sys2Proof

/-- The command byte on port `cmd` (30_encoding.md R60). -/
abbrev Byte := BitVec 8

/-- A word on one of the 32-bit ports `a`, `b`, `y` (10_state.md R21, R22). -/
abbrev Word := BitVec 32

/-- A FixedPoint12_4 value: its raw 16-bit word and nothing else (10_state.md R29; 30_encoding.md R70). -/
abbrev Fx := BitVec 16

/-- A binary32 pattern: sign bit 31, exponent field bits 30..23, mantissa field bits 22..0
(30_encoding.md R75). Every pattern is a valid MiniFloat value (10_state.md R31). -/
abbrev F32 := BitVec 32

end Sys2Proof
end

