-- ==== Sys2Proof/Config.lean ====
section
/-! DEFINITION. What an implementation of NUMCORE fixes (00_scope.md R8; 10_state.md R26), and the free values,
which nothing fixes (43_minifloat_arithmetic.md R198; 60_exceptions.md R251). -/

namespace Sys2Proof

/-- The two tie rules that `FX_ROUND_TIES` may name (00_scope.md R8; 40_fixed_point_12_4.md R104). -/
inductive RoundTies where
  /-- Round half to even: the spec's default (92_eei_decisions.md D8). -/
  | even
  /-- Round half away from zero. -/
  | away
deriving DecidableEq, Repr

/-- The build-time constants of one NUMCORE that the spec leaves open. They are no registers: no operation reads
them out and no operation writes them (10_state.md R26). -/
structure Config where
  /-- `FX_ROUND_TIES`, the tie rule of FX.FROMFLOAT (00_scope.md R8). -/
  fxRoundTies : RoundTies
deriving DecidableEq, Repr

/-- The configuration the spec's test vectors assume: `FX_ROUND_TIES = even` (00_scope.md R8; log entry 4). -/
def Config.default : Config := { fxRoundTies := .even }

/-- FREE VALUE (log entry 2). The raw draw behind a NaN result: one 32-bit word per request answered, of which
nothing is known. It may depend on how many requests were answered before and on the request itself, so that two
requests need not draw alike (43_minifloat_arithmetic.md R198). -/
opaque Config.nanDraw (draws : Nat) (cmd : Byte) (a b : Word) : Word

/-- FREE VALUE (log entry 1). What `y` carries when `err = 1`: any 32-bit word, which may differ between identical
requests (60_exceptions.md R251). -/
opaque Config.faultY (draws : Nat) (cmd : Byte) (a b : Word) : Word

end Sys2Proof
end

