-- ==== Sys2Proof/Machine/State.lean ====
section
/-! DEFINITION. What State holds: the three request ports, the three response ports, the build-time parameter, and
the model's own counter of requests answered. NUMCORE has no register, no flag, no memory and no program counter
(10_state.md R20, R23 to R27, R30), so nothing else is state. -/

namespace Sys2Proof.Machine

/-- The five fault causes (60_exceptions.md R252; 93_implementation_defined.md U9). A step of the machine never ends
in one: a fault is a RESPONSE, which the step drives on `err` and `cause` (R251, R257, R258; log entry 1). Every
constructor is raised as an outcome by the run driver alone (Sys2Proof/Machine/Run.lean), where a run of requests
ends at its first fault (70_reset_and_hazards.md R289); each is safe, since the spec ends the run there. -/
inductive Fault where
  /-- `cmd` is not one of the 63 bytes. Raised by a run at such a request (R252); safe. -/
  | illegalOp
  /-- A port that is read carries 1-bits above its operand's width (30_encoding.md R64). Raised by a run at such a
  request (R252); safe. -/
  | operandRange
  /-- FX.DIV by the word 0x0000 (40_fixed_point_12_4.md R112). Raised by a run at such a request (R252); safe. -/
  | divByZero
  /-- FX.FROMFLOAT of an infinity or a NaN (40_fixed_point_12_4.md R104). Raised by a run at such a request (R252);
  safe. -/
  | floatNotFinite
  /-- MF.TORAW of a value whose exponent the format cannot spell (42_minifloat_encoder.md R172). Raised by a run at
  such a request (R252); safe. -/
  | encodeRange
deriving DecidableEq, Repr

/-- Why the model gives no meaning. NUMCORE refuses nothing (00_scope.md R13; 93_implementation_defined.md part 1),
so no step raises any of these. -/
inductive Refusal where
  /-- An arm of `exec` without a meaning. Raised by nothing: every operation has its meaning. Safe. -/
  | notModelled (mnemonic : String)
  /-- A line of the host's notation reads a temporary that no earlier request of the run wrote. Raised by the run
  driver alone (70_reset_and_hazards.md R289: an operand is a literal or the `y` of an earlier request). Safe. -/
  | unsetTemporary (t : Nat)
  /-- A response with `err = 1` and a `cause` that names no fault. Raised by nothing: codes 0, 6 and 7 are never
  produced with `err = 1` (60_exceptions.md R252); it makes the run driver total. Safe. -/
  | reservedCause (code : BitVec 3)
deriving DecidableEq, Repr

/-- The ports of one NUMCORE (10_state.md R21, R22) and what the model adds to them. -/
structure State where
  /-- Request port: the command byte (10_state.md R21). -/
  cmd : Byte
  /-- Request port: the first operand (10_state.md R21). -/
  a : Word
  /-- Request port: the second operand (10_state.md R21). -/
  b : Word
  /-- Response port: the result; without information when `err = 1` (10_state.md R22). -/
  y : Word
  /-- Response port: 0 ok, 1 fault (10_state.md R22). -/
  err : BitVec 1
  /-- Response port: the cause code when `err = 1`, else `0b000` (10_state.md R22). -/
  cause : BitVec 3
  /-- The build-time parameter the spec leaves open (00_scope.md R8). No step writes it. -/
  config : Config
  /-- THE MODEL'S OWN: how many requests were answered; the index of the free values (log entries 1 and 2). -/
  draws : Nat
deriving DecidableEq, Repr

/-- Right after reset. The spec has no state to reset and gives the ports no value before the first request
(10_state.md R33; 70_reset_and_hazards.md R280): the zeros are DESIGN CHOICE, log entry 3. -/
def State.reset : State :=
  { cmd := 0, a := 0, b := 0, y := 0, err := 0, cause := 0, config := Config.default, draws := 0 }

end Sys2Proof.Machine
end

