-- ==== Sys2Proof/Syntax.lean ====
section
/-! DEFINITION. The syntax: the three minifloat formats, the 63 operations of spec/opcode_table.json, one
constructor each, and the host's one-line request notation (30_encoding.md R80, R82). -/

namespace Sys2Proof

/-- The three minifloat instantiations (30_encoding.md R61; 44_format_converter_chain.md R230). -/
inductive Format where
  /-- float24: M = 16, E = 7 (30_encoding.md R72). -/
  | f24
  /-- float20: M = 12, E = 7 (30_encoding.md R73). -/
  | f20
  /-- float16: M = 10, E = 5 (30_encoding.md R74). -/
  | f16
deriving DecidableEq, Repr

/-- The operations of NUMCORE, one constructor per row of the opcode table (30_encoding.md R62). The operands are on
the ports `a` and `b`, not in the command (30_encoding.md R60), so no constructor carries an argument. -/
inductive Instr where
  /-- `FX.ZERO`, command byte 0x00 (R101). -/
  | fxZero
  /-- `FX.FROMRAW`, command byte 0x01 (R102). -/
  | fxFromraw
  /-- `FX.FROMINT`, command byte 0x02 (R103). -/
  | fxFromint
  /-- `FX.FROMFLOAT`, command byte 0x03 (R104). -/
  | fxFromfloat
  /-- `FX.INT`, command byte 0x04 (R105). -/
  | fxInt
  /-- `FX.FRAC`, command byte 0x05 (R106). -/
  | fxFrac
  /-- `FX.FLOOR`, command byte 0x06 (R107). -/
  | fxFloor
  /-- `FX.CEIL`, command byte 0x07 (R108). -/
  | fxCeil
  /-- `FX.ADD`, command byte 0x08 (R109). -/
  | fxAdd
  /-- `FX.SUB`, command byte 0x09 (R110). -/
  | fxSub
  /-- `FX.MUL`, command byte 0x0A (R111). -/
  | fxMul
  /-- `FX.DIV`, command byte 0x0B (R112). -/
  | fxDiv
  /-- `FX.LT`, command byte 0x10 (R113). -/
  | fxLt
  /-- `FX.LE`, command byte 0x11 (R114). -/
  | fxLe
  /-- `FX.GT`, command byte 0x12 (R115). -/
  | fxGt
  /-- `FX.GE`, command byte 0x13 (R116). -/
  | fxGe
  /-- `FX.EQ`, command byte 0x14 (R117). -/
  | fxEq
  /-- `FX.NE`, command byte 0x15 (R118). -/
  | fxNe
  /-- `MF.ZERO.f24`, command byte 0x20 (R200). -/
  | mfZeroF24
  /-- `MF.ZERO.f20`, command byte 0x60 (R200). -/
  | mfZeroF20
  /-- `MF.ZERO.f16`, command byte 0xA0 (R200). -/
  | mfZeroF16
  /-- `MF.FROMRAW.f24`, command byte 0x21 (R151). -/
  | mfFromrawF24
  /-- `MF.FROMRAW.f20`, command byte 0x61 (R151). -/
  | mfFromrawF20
  /-- `MF.FROMRAW.f16`, command byte 0xA1 (R151). -/
  | mfFromrawF16
  /-- `MF.FROMF32.f24`, command byte 0x22 (R171). -/
  | mfFromf32F24
  /-- `MF.FROMF32.f20`, command byte 0x62 (R171). -/
  | mfFromf32F20
  /-- `MF.FROMF32.f16`, command byte 0xA2 (R171). -/
  | mfFromf32F16
  /-- `MF.TORAW.f24`, command byte 0x23 (R172). -/
  | mfTorawF24
  /-- `MF.TORAW.f20`, command byte 0x63 (R172). -/
  | mfTorawF20
  /-- `MF.TORAW.f16`, command byte 0xA3 (R172). -/
  | mfTorawF16
  /-- `MF.NEG.f24`, command byte 0x24 (R201). -/
  | mfNegF24
  /-- `MF.NEG.f20`, command byte 0x64 (R201). -/
  | mfNegF20
  /-- `MF.NEG.f16`, command byte 0xA4 (R201). -/
  | mfNegF16
  /-- `MF.ADD.f24`, command byte 0x28 (R202). -/
  | mfAddF24
  /-- `MF.ADD.f20`, command byte 0x68 (R202). -/
  | mfAddF20
  /-- `MF.ADD.f16`, command byte 0xA8 (R202). -/
  | mfAddF16
  /-- `MF.SUB.f24`, command byte 0x29 (R203). -/
  | mfSubF24
  /-- `MF.SUB.f20`, command byte 0x69 (R203). -/
  | mfSubF20
  /-- `MF.SUB.f16`, command byte 0xA9 (R203). -/
  | mfSubF16
  /-- `MF.MUL.f24`, command byte 0x2A (R204). -/
  | mfMulF24
  /-- `MF.MUL.f20`, command byte 0x6A (R204). -/
  | mfMulF20
  /-- `MF.MUL.f16`, command byte 0xAA (R204). -/
  | mfMulF16
  /-- `MF.DIV.f24`, command byte 0x2B (R205). -/
  | mfDivF24
  /-- `MF.DIV.f20`, command byte 0x6B (R205). -/
  | mfDivF20
  /-- `MF.DIV.f16`, command byte 0xAB (R205). -/
  | mfDivF16
  /-- `MF.LT.f24`, command byte 0x30 (R206). -/
  | mfLtF24
  /-- `MF.LT.f20`, command byte 0x70 (R206). -/
  | mfLtF20
  /-- `MF.LT.f16`, command byte 0xB0 (R206). -/
  | mfLtF16
  /-- `MF.LE.f24`, command byte 0x31 (R207). -/
  | mfLeF24
  /-- `MF.LE.f20`, command byte 0x71 (R207). -/
  | mfLeF20
  /-- `MF.LE.f16`, command byte 0xB1 (R207). -/
  | mfLeF16
  /-- `MF.GT.f24`, command byte 0x32 (R208). -/
  | mfGtF24
  /-- `MF.GT.f20`, command byte 0x72 (R208). -/
  | mfGtF20
  /-- `MF.GT.f16`, command byte 0xB2 (R208). -/
  | mfGtF16
  /-- `MF.GE.f24`, command byte 0x33 (R209). -/
  | mfGeF24
  /-- `MF.GE.f20`, command byte 0x73 (R209). -/
  | mfGeF20
  /-- `MF.GE.f16`, command byte 0xB3 (R209). -/
  | mfGeF16
  /-- `MF.EQ.f24`, command byte 0x34 (R210). -/
  | mfEqF24
  /-- `MF.EQ.f20`, command byte 0x74 (R210). -/
  | mfEqF20
  /-- `MF.EQ.f16`, command byte 0xB4 (R210). -/
  | mfEqF16
  /-- `MF.NE.f24`, command byte 0x35 (R211). -/
  | mfNeF24
  /-- `MF.NE.f20`, command byte 0x75 (R211). -/
  | mfNeF20
  /-- `MF.NE.f16`, command byte 0xB5 (R211). -/
  | mfNeF16
deriving DecidableEq, Repr

/-- Where the host takes an operand of a request from (30_encoding.md R80): a literal or the `y` of an earlier
request, kept in a temporary `t0, t1, ...` of the host (10_state.md R23). -/
inductive Source where
  /-- `0x...`: a bit pattern placed on the port as it is. -/
  | bits (w : Word)
  /-- A decimal integer `n`. For an `i16` operand it stands for `trunc_16(n)` (30_encoding.md R80); what it stands for
  on any other port is DESIGN CHOICE, log entry 10. -/
  | int (n : Int)
  /-- A decimal with a point and the suffix `f`: the digits `digits`, the last `places` of them after the point,
  negative where `neg`; it stands for the binary32 pattern nearest that decimal, on whatever port it is put
  (30_encoding.md R80; log entry 9). -/
  | decimal (neg : Bool) (digits places : Nat)
  /-- The host's temporary with this number. -/
  | temp (t : Nat)
deriving DecidableEq, Repr

/-- One line of the host's notation: one request, and the temporary the host moves `y` into (30_encoding.md R80). The
command is any byte, so that a line may also carry a reserved one (30_encoding.md R66). -/
structure Line where
  /-- `<dest>`: the temporary that receives `y`. -/
  dest : Nat
  /-- The byte on `cmd`. -/
  cmd : Byte
  /-- `<src a>`. -/
  a : Source
  /-- `<src b>`. -/
  b : Source
deriving DecidableEq, Repr

/-- The pseudo-instructions (30_encoding.md R82; 40_fixed_point_12_4.md R119). -/
inductive Pseudo where
  /-- `FX.FROMINT t, i`: the fraction defaults to 0. -/
  | fromint (t : Nat) (i : Source)
  /-- `FX.ADDA t, s`, the compound `t += s`. -/
  | adda (t : Nat) (s : Source)
  /-- `FX.SUBA t, s`, the compound `t -= s`. -/
  | suba (t : Nat) (s : Source)
  /-- `FX.MULA t, s`, the compound `t *= s`. -/
  | mula (t : Nat) (s : Source)
  /-- `FX.DIVA t, s`, the compound `t /= s`. -/
  | diva (t : Nat) (s : Source)
deriving DecidableEq, Repr

end Sys2Proof
end

