-- ==== Sys2Proof/Machine/Operands.lean ====
section
/-! DEFINITION. Operand forms and result placement: the six value types and their widths (10_state.md R28), the table
of operand and result types (30_encoding.md R63), justification (R64) and placement (R65); the constants of the three
formats (44_format_converter_chain.md R231). -/

namespace Sys2Proof

/-- M, the mantissa width of a format (30_encoding.md R61). -/
def Format.M : Format → Nat
  | .f24 => 16
  | .f20 => 12
  | .f16 => 10

/-- E, the exponent width of a format (30_encoding.md R61). -/
def Format.E : Format → Nat
  | .f24 => 7
  | .f20 => 7
  | .f16 => 5

/-- W = M + E + 1, the width of a pattern (30_encoding.md R61). -/
def Format.W (f : Format) : Nat := f.M + f.E + 1

/-- The re-biasing constant `128 - 2^(E-1)` (00_scope.md R7; 41_minifloat_decoder.md R151 step 1). -/
def bias (E : Nat) : Nat := 128 - 2 ^ (E - 1)

/-- The value types that travel on the ports (10_state.md R28). -/
inductive ValueType where
  /-- A FixedPoint12_4 word. -/
  | fx
  /-- A 16-bit two's-complement integer. -/
  | i16
  /-- A 16-bit unsigned integer. -/
  | u16
  /-- A binary32 pattern. -/
  | f32
  /-- A minifloat hardware pattern of the format. -/
  | mfraw (f : Format)
  /-- A Boolean, in bit 0. -/
  | bool
deriving DecidableEq, Repr

/-- The width of a value type (10_state.md R28). -/
def ValueType.width : ValueType → Nat
  | .fx => 16
  | .i16 => 16
  | .u16 => 16
  | .f32 => 32
  | .mfraw f => f.W
  | .bool => 1

/-- The types of port `a`, port `b` and `y` for one operation; `none` is the dash, a port that is not read
(30_encoding.md R63). -/
structure Signature where
  /-- What port `a` carries. -/
  a : Option ValueType
  /-- What port `b` carries. -/
  b : Option ValueType
  /-- What `y` carries. -/
  y : ValueType
deriving DecidableEq, Repr

/-- Two `fx` operands. -/
def Signature.fx2 (y : ValueType) : Signature := ⟨some .fx, some .fx, y⟩

/-- One `fx` operand. -/
def Signature.fx1 (y : ValueType) : Signature := ⟨some .fx, none, y⟩

/-- Two `f32` operands. -/
def Signature.f2 (y : ValueType) : Signature := ⟨some .f32, some .f32, y⟩

/-- One `f32` operand. -/
def Signature.f1 (y : ValueType) : Signature := ⟨some .f32, none, y⟩

/-- The table of operand and result types (30_encoding.md R63). -/
def Instr.signature : Instr → Signature
  | .fxZero => ⟨none, none, .fx⟩
  | .fxFromraw => .fx1 .fx
  | .fxFromint => ⟨some .i16, some .u16, .fx⟩
  | .fxFromfloat => ⟨some .f32, none, .fx⟩
  | .fxInt => .fx1 .i16
  | .fxFrac => .fx1 .u16
  | .fxFloor => .fx1 .fx
  | .fxCeil => .fx1 .fx
  | .fxAdd => .fx2 .fx
  | .fxSub => .fx2 .fx
  | .fxMul => .fx2 .fx
  | .fxDiv => .fx2 .fx
  | .fxLt => .fx2 .bool
  | .fxLe => .fx2 .bool
  | .fxGt => .fx2 .bool
  | .fxGe => .fx2 .bool
  | .fxEq => .fx2 .bool
  | .fxNe => .fx2 .bool
  | .mfZeroF24 => ⟨none, none, .f32⟩
  | .mfZeroF20 => ⟨none, none, .f32⟩
  | .mfZeroF16 => ⟨none, none, .f32⟩
  | .mfFromrawF24 => ⟨some (.mfraw .f24), none, .f32⟩
  | .mfFromrawF20 => ⟨some (.mfraw .f20), none, .f32⟩
  | .mfFromrawF16 => ⟨some (.mfraw .f16), none, .f32⟩
  | .mfFromf32F24 => .f1 .f32
  | .mfFromf32F20 => .f1 .f32
  | .mfFromf32F16 => .f1 .f32
  | .mfTorawF24 => .f1 (.mfraw .f24)
  | .mfTorawF20 => .f1 (.mfraw .f20)
  | .mfTorawF16 => .f1 (.mfraw .f16)
  | .mfNegF24 => .f1 .f32
  | .mfNegF20 => .f1 .f32
  | .mfNegF16 => .f1 .f32
  | .mfAddF24 => .f2 .f32
  | .mfAddF20 => .f2 .f32
  | .mfAddF16 => .f2 .f32
  | .mfSubF24 => .f2 .f32
  | .mfSubF20 => .f2 .f32
  | .mfSubF16 => .f2 .f32
  | .mfMulF24 => .f2 .f32
  | .mfMulF20 => .f2 .f32
  | .mfMulF16 => .f2 .f32
  | .mfDivF24 => .f2 .f32
  | .mfDivF20 => .f2 .f32
  | .mfDivF16 => .f2 .f32
  | .mfLtF24 => .f2 .bool
  | .mfLtF20 => .f2 .bool
  | .mfLtF16 => .f2 .bool
  | .mfLeF24 => .f2 .bool
  | .mfLeF20 => .f2 .bool
  | .mfLeF16 => .f2 .bool
  | .mfGtF24 => .f2 .bool
  | .mfGtF20 => .f2 .bool
  | .mfGtF16 => .f2 .bool
  | .mfGeF24 => .f2 .bool
  | .mfGeF20 => .f2 .bool
  | .mfGeF16 => .f2 .bool
  | .mfEqF24 => .f2 .bool
  | .mfEqF20 => .f2 .bool
  | .mfEqF16 => .f2 .bool
  | .mfNeF24 => .f2 .bool
  | .mfNeF20 => .f2 .bool
  | .mfNeF16 => .f2 .bool

/-- R64: the bits of a port above its operand's width are 0. -/
def justified (t : ValueType) (p : Word) : Bool := p.toNat < 2 ^ t.width

/-- R64: a port that is not read is ignored entirely. -/
def portJustified : Option ValueType → Word → Bool
  | none, _ => true
  | some t, p => justified t p

namespace Machine

/-- What a request is answered with (10_state.md R20): a word, some NaN pattern that nobody chooses
(43_minifloat_arithmetic.md R198), or a fault, which carries no value (60_exceptions.md R251). -/
inductive Response where
  /-- `err = 0` with this `y`. -/
  | ok (y : Word)
  /-- `err = 0` with `any_nan()` on `y` (00_scope.md R12). -/
  | anyNan
  /-- `err = 1` with this cause. -/
  | fault (c : Fault)
deriving DecidableEq, Repr

/-- Bits `Wt-1..0` of a port, for an operand of `Wt` bits, once bits `31..Wt` are seen to be 0; else OPERAND_RANGE
and no part of the operand is used (30_encoding.md R64). `k` says what is done with the operand. -/
def withOperand (Wt : Nat) (p : Word) (k : BitVec Wt → Response) : Response :=
  if p >>> Wt = 0#32 then k (p.setWidth Wt) else .fault .operandRange

/-- The checks and the operand of an operation on one 16-bit port (40_fixed_point_12_4.md R100). -/
def withFx1 (a : Word) (k : Fx → Response) : Response := withOperand 16 a k

/-- The checks and the operands of an operation on two 16-bit ports, port `a` first
(40_fixed_point_12_4.md R100; 60_exceptions.md R253). -/
def withFx2 (a b : Word) (k : Fx → Fx → Response) : Response :=
  withOperand 16 a fun A => withOperand 16 b fun B => k A B

/-- A 16-bit result on `y`: zero-extended, a negative word too (30_encoding.md R65). -/
def placeFx (v : Fx) : Word := v.setWidth 32

/-- A Boolean result on `y` (30_encoding.md R65). -/
def placeBool (p : Bool) : Word := if p then 1#32 else 0#32

/-- `sint_N(v)`, the signed two's-complement value (00_scope.md R9). -/
def sint {n : Nat} (v : BitVec n) : Int := v.toInt

/-- `trunc_16(z)`: the 16-bit word whose unsigned value is `z mod 2^16` (00_scope.md R9). -/
def trunc16 (z : Int) : Fx := BitVec.ofInt 16 z

/-- `tdiv(p, q)`: division truncating toward zero (00_scope.md R10). -/
def tdiv (p q : Int) : Int := p.sign * q.sign * ((p.natAbs / q.natAbs : Nat) : Int)

/-- The integer nearest `num / den`, for naturals, with the tie rule given (40_fixed_point_12_4.md R104;
43_minifloat_arithmetic.md R191). -/
def roundQuotient (ties : RoundTies) (num den : Nat) : Nat :=
  let k := num / den
  let twice := 2 * (num % den)
  if twice < den then k
  else if den < twice then k + 1
  else
    match ties with
    | .even => if k % 2 = 0 then k else k + 1
    | .away => k + 1

/-- `round_int`: the integer nearest `num / den`; a tie goes to the even one, or to the one of larger magnitude
(40_fixed_point_12_4.md R104). Both rules are symmetric in the sign. -/
def roundInt (ties : RoundTies) (num : Int) (den : Nat) : Int :=
  num.sign * (roundQuotient ties num.natAbs den : Int)

end Machine

end Sys2Proof
end

