-- ==== Sys2Proof/Machine/Binary32.lean ====
section
/-! DEFINITION. binary32 patterns and the "native floating arithmetic" of the MF family (00_scope.md R11;
43_minifloat_arithmetic.md R191 to R196). Every finite binary32 is an integer multiple of 2^-149, so a value is held
exactly as an `Int` that counts units of 2^-149. -/

namespace Sys2Proof.Machine

/-- `sgn(f) = f[31]` (00_scope.md R11). -/
def sgn (f : F32) : Bool := f.getLsbD 31

/-- `ex(f) = uint(f[30:23])` (00_scope.md R11). -/
def ex (f : F32) : Nat := (f.extractLsb' 23 8).toNat

/-- `fr(f) = uint(f[22:0])` (00_scope.md R11). -/
def fr (f : F32) : Nat := (f.extractLsb' 0 23).toNat

/-- `f[30:0] = 0` (00_scope.md R11). -/
def isZero (f : F32) : Bool := f.extractLsb' 0 31 == 0#31

/-- `ex = 255` and `fr = 0` (00_scope.md R11). -/
def isInf (f : F32) : Bool := ex f == 255 && fr f == 0

/-- `ex = 255` and `fr != 0` (00_scope.md R11). -/
def isNan (f : F32) : Bool := ex f == 255 && fr f != 0

/-- `ex != 255` (00_scope.md R11). -/
def isFinite (f : F32) : Bool := ex f != 255

/-- `+0.0` (00_scope.md R11). -/
def plusZero : F32 := 0x00000000#32

/-- The pattern with this sign, exponent field and mantissa field (30_encoding.md R75). -/
def assemble (s : Bool) (e : BitVec 8) (m : BitVec 23) : F32 := (BitVec.ofBool s ++ e) ++ m

/-- The zero of sign `s`. -/
def zeroOf (s : Bool) : F32 := assemble s 0#8 0#23

/-- The infinity of sign `s`. -/
def infOf (s : Bool) : F32 := assemble s 255#8 0#23

/-- `|val(f)|` in units of 2^-149 (00_scope.md R11): a normal number is `(2^23 + fr) * 2^(ex-150)`, a subnormal or a
zero is `fr * 2^-149`. -/
def magUnits (f : F32) : Nat := if ex f = 0 then fr f else (2 ^ 23 + fr f) * 2 ^ (ex f - 1)

/-- `val(f)` of a finite pattern, in units of 2^-149 (00_scope.md R11); the value of both zeros is 0. -/
def valUnits (f : F32) : Int := if sgn f then -(magUnits f : Int) else (magUnits f : Int)

/-- The pattern of magnitude `n * 2^sh` units of 2^-149 and sign `s`, for `n ≤ 2^24` and `n ≥ 2^23` unless `sh = 0`,
which is what `roundF32` hands over; the infinity from 2^128 on (43_minifloat_arithmetic.md R191). An exponent field of
`sh + 1` stands above the mantissa field `n - 2^23`, and `n < 2^23` is subnormal: both read `sh * 2^23 + n`. -/
def packF32 (s : Bool) (n sh : Nat) : F32 :=
  if n * 2 ^ sh ≥ 2 ^ 128 * 2 ^ 149 then infOf s
  else BitVec.ofBool s ++ BitVec.ofNat 31 (sh * 2 ^ 23 + n)

/-- `round_f32(r)` for the real `r` of sign `s` and magnitude `num / den` units of 2^-149: round to nearest, ties to
even, gradual underflow (43_minifloat_arithmetic.md R191). `sh` is the rule's `q + 149`, that is
`max(floor(log2 |r|), -126) - 23 + 149`; below one unit the logarithm plays no part. -/
def roundF32 (s : Bool) (num den : Nat) : F32 :=
  let sh := Nat.log2 (num / den) - 23
  packF32 s (roundQuotient .even num (den * 2 ^ sh)) sh

/-- `f32_neg(A)`: bit 31 inverted, for every pattern (43_minifloat_arithmetic.md R193). -/
def f32Neg (A : F32) : F32 := A ^^^ 0x80000000#32

/-- `f32_add(A, B)` (43_minifloat_arithmetic.md R192). -/
def f32Add (A B : F32) : Response :=
  if isNan A || isNan B then .anyNan
  else if isInf A && isInf B then (if sgn A = sgn B then .ok A else .anyNan)
  else if isInf A then .ok A
  else if isInf B then .ok B
  else if isZero A && isZero B then (if sgn A = sgn B then .ok A else .ok plusZero)
  else
    let r := valUnits A + valUnits B
    if r = 0 then .ok plusZero else .ok (roundF32 (decide (r < 0)) r.natAbs 1)

/-- `f32_sub(A, B)` (43_minifloat_arithmetic.md R193). -/
def f32Sub (A B : F32) : Response :=
  if isNan A || isNan B then .anyNan else f32Add A (f32Neg B)

/-- `f32_mul(A, B)` (43_minifloat_arithmetic.md R194). The product of two counts of 2^-149 counts 2^-298. -/
def f32Mul (A B : F32) : Response :=
  let s := sgn A ^^ sgn B
  if isNan A || isNan B then .anyNan
  else if (isInf A && isZero B) || (isZero A && isInf B) then .anyNan
  else if isInf A || isInf B then .ok (infOf s)
  else if isZero A || isZero B then .ok (zeroOf s)
  else .ok (roundF32 s (magUnits A * magUnits B) (2 ^ 149))

/-- `f32_div(A, B)` (43_minifloat_arithmetic.md R195). The quotient of two counts of 2^-149 counts 1. -/
def f32Div (A B : F32) : Response :=
  let s := sgn A ^^ sgn B
  if isNan A || isNan B then .anyNan
  else if (isInf A && isInf B) || (isZero A && isZero B) then .anyNan
  else if isInf A then .ok (infOf s)
  else if isInf B then .ok (zeroOf s)
  else if isZero B then .ok (infOf s)
  else if isZero A then .ok (zeroOf s)
  else .ok (roundF32 s (magUnits A * 2 ^ 149) (magUnits B))

/-- The extended reals in which patterns are compared (43_minifloat_arithmetic.md R196). -/
inductive ExtVal where
  /-- The value of `-inf`. -/
  | negInf
  /-- A finite value, in units of 2^-149. -/
  | fin (v : Int)
  /-- The value of `+inf`. -/
  | posInf
deriving DecidableEq, Repr

/-- The order of the extended reals. -/
def extLt : ExtVal → ExtVal → Bool
  | .negInf, .negInf => false
  | .negInf, _ => true
  | .fin _, .negInf => false
  | .fin v, .fin w => v < w
  | .fin _, .posInf => true
  | .posInf, _ => false

/-- `xval(f)` of a pattern that is no NaN (43_minifloat_arithmetic.md R196). -/
def xval (f : F32) : ExtVal :=
  if isInf f then (if sgn f then .negInf else .posInf) else .fin (valUnits f)

/-- `f32_eq(A, B)` (43_minifloat_arithmetic.md R196). -/
def f32Eq (A B : F32) : Bool := !isNan A && !isNan B && xval A == xval B

/-- `f32_lt(A, B)` (43_minifloat_arithmetic.md R196). -/
def f32Lt (A B : F32) : Bool := !isNan A && !isNan B && extLt (xval A) (xval B)

/-- `f32_le(A, B)` (43_minifloat_arithmetic.md R196). -/
def f32Le (A B : F32) : Bool := !isNan A && !isNan B && (extLt (xval A) (xval B) || xval A == xval B)

end Sys2Proof.Machine
end

