-- ==== Sys2Proof/Machine/FixedPoint.lean ====
section
/-! DEFINITION. The integer arithmetic of FixedPoint12_4 on raw 16-bit words (40_fixed_point_12_4.md R100, R124):
wide exact integers, then truncation to 16 bits. -/

namespace Sys2Proof.Machine

/-- `IntMask = 0xFFF0` (00_scope.md R7). -/
def intMask : Fx := 0xFFF0#16

/-- `FracMask = 0x000F` (00_scope.md R7). -/
def fracMask : Fx := 0x000F#16

/-- FX.FROMINT of intPart and fracPart (40_fixed_point_12_4.md R103). -/
def fxFromInt (intPart fracPart : BitVec 16) : Fx :=
  (trunc16 (sint intPart * 16) &&& intMask) ||| (fracPart &&& fracMask)

/-- FX.FROMFLOAT: `val(a) * 16` exactly, rounded to the nearest integer with the tie rule, truncated to 16 bits; a
non-finite operand faults (40_fixed_point_12_4.md R104). `val(a) * 16` is `valUnits a * 16 / 2^149`. -/
def fxFromFloat (ties : RoundTies) (a : F32) : Response :=
  if !isFinite a then .fault .floatNotFinite
  else .ok (placeFx (trunc16 (roundInt ties (valUnits a * 16) (2 ^ 149))))

/-- FX.INT: the 12-bit integer field, sign-extended to 16 bits (40_fixed_point_12_4.md R105). -/
def fxIntPart (A : Fx) : BitVec 16 := (A.extractLsb' 4 12).signExtend 16

/-- FX.FRAC (40_fixed_point_12_4.md R106). -/
def fxFracPart (A : Fx) : BitVec 16 := A &&& fracMask

/-- FX.FLOOR (40_fixed_point_12_4.md R107). -/
def fxFloor (A : Fx) : Fx := A &&& intMask

/-- FX.CEIL: add 15 with a 16-bit wrap, then floor (40_fixed_point_12_4.md R108). -/
def fxCeil (A : Fx) : Fx := trunc16 (sint A + 15) &&& intMask

/-- FX.ADD, wrapping (40_fixed_point_12_4.md R109). -/
def fxAdd (A B : Fx) : Fx := trunc16 (sint A + sint B)

/-- FX.SUB, wrapping (40_fixed_point_12_4.md R110). -/
def fxSub (A B : Fx) : Fx := trunc16 (sint A - sint B)

/-- FX.MUL: the exact product over 16, truncated toward zero, wrapping (40_fixed_point_12_4.md R111). -/
def fxMul (A B : Fx) : Fx := trunc16 (tdiv (sint A * sint B) 16)

/-- FX.DIV: DIV_BY_ZERO for the divisor 0, else the dividend times 16 over the divisor, truncated toward zero,
wrapping (40_fixed_point_12_4.md R112). -/
def fxDiv (A B : Fx) : Response :=
  if sint B = 0 then .fault .divByZero else .ok (placeFx (trunc16 (tdiv (sint A * 16) (sint B))))

end Sys2Proof.Machine
end

