-- ==== Sys2Proof/Decode.lean ====
section
/-! DEFINITION. Decoding a command byte by its two fields (30_encoding.md R60 to R62, R66), total on all 256 bytes,
and after it the encoder, which gives each operation the byte the table lists for it. -/

namespace Sys2Proof

/-- Why a command byte is no operation: the three classes of reserved byte (30_encoding.md R66). -/
inductive DecodeError where
  /-- `op` is assigned to no operation, whatever `fmt` is. -/
  | unassignedOp
  /-- An FX `op` with `fmt` other than `0b00`. -/
  | fxWithFormat
  /-- An MF `op` with the reserved `fmt = 0b11`. -/
  | reservedFormat
deriving DecidableEq, Repr

/-- `fmt = cmd[7:6]` (30_encoding.md R60). -/
def fmtField (cmd : Byte) : BitVec 2 := cmd.extractLsb' 6 2

/-- `op = cmd[5:0]` (30_encoding.md R60). -/
def opField (cmd : Byte) : BitVec 6 := cmd.extractLsb' 0 6

/-- The format a `fmt` code selects; `0b11` selects none (30_encoding.md R61). -/
def Format.ofCode (fmt : BitVec 2) : Option Format :=
  match fmt.toNat with
  | 0 => some .f24
  | 1 => some .f20
  | 2 => some .f16
  | _ => none

/-- One of three, by format. -/
def Format.select {α : Type} (x24 x20 x16 : α) : Format → α
  | .f24 => x24
  | .f20 => x20
  | .f16 => x16

/-- The FX half of the `op` table (30_encoding.md R62). -/
def decodeFxOp : Nat → Option Instr
  | 0x00 => some .fxZero
  | 0x01 => some .fxFromraw
  | 0x02 => some .fxFromint
  | 0x03 => some .fxFromfloat
  | 0x04 => some .fxInt
  | 0x05 => some .fxFrac
  | 0x06 => some .fxFloor
  | 0x07 => some .fxCeil
  | 0x08 => some .fxAdd
  | 0x09 => some .fxSub
  | 0x0A => some .fxMul
  | 0x0B => some .fxDiv
  | 0x10 => some .fxLt
  | 0x11 => some .fxLe
  | 0x12 => some .fxGt
  | 0x13 => some .fxGe
  | 0x14 => some .fxEq
  | 0x15 => some .fxNe
  | _ => none

/-- The MF half of the `op` table, for one format (30_encoding.md R62). -/
def decodeMfOp (f : Format) : Nat → Option Instr
  | 0x20 => some (f.select .mfZeroF24 .mfZeroF20 .mfZeroF16)
  | 0x21 => some (f.select .mfFromrawF24 .mfFromrawF20 .mfFromrawF16)
  | 0x22 => some (f.select .mfFromf32F24 .mfFromf32F20 .mfFromf32F16)
  | 0x23 => some (f.select .mfTorawF24 .mfTorawF20 .mfTorawF16)
  | 0x24 => some (f.select .mfNegF24 .mfNegF20 .mfNegF16)
  | 0x28 => some (f.select .mfAddF24 .mfAddF20 .mfAddF16)
  | 0x29 => some (f.select .mfSubF24 .mfSubF20 .mfSubF16)
  | 0x2A => some (f.select .mfMulF24 .mfMulF20 .mfMulF16)
  | 0x2B => some (f.select .mfDivF24 .mfDivF20 .mfDivF16)
  | 0x30 => some (f.select .mfLtF24 .mfLtF20 .mfLtF16)
  | 0x31 => some (f.select .mfLeF24 .mfLeF20 .mfLeF16)
  | 0x32 => some (f.select .mfGtF24 .mfGtF20 .mfGtF16)
  | 0x33 => some (f.select .mfGeF24 .mfGeF20 .mfGeF16)
  | 0x34 => some (f.select .mfEqF24 .mfEqF20 .mfEqF16)
  | 0x35 => some (f.select .mfNeF24 .mfNeF20 .mfNeF16)
  | _ => none

/-- Decoding is total on all 256 bytes and refuses a reserved byte by name (30_encoding.md R66). -/
def decode (cmd : Byte) : Except DecodeError Instr :=
  let op := (opField cmd).toNat
  match decodeFxOp op with
  | some i => if fmtField cmd = 0#2 then .ok i else .error .fxWithFormat
  | none =>
    match Format.ofCode (fmtField cmd) with
    | some f =>
      match decodeMfOp f op with
      | some i => .ok i
      | none => .error .unassignedOp
    | none => if (decodeMfOp .f24 op).isSome then .error .reservedFormat else .error .unassignedOp

/-- The command byte of each operation, as the opcode table lists it (30_encoding.md R62). -/
def encode : Instr → Byte
  | .fxZero => 0x00#8
  | .fxFromraw => 0x01#8
  | .fxFromint => 0x02#8
  | .fxFromfloat => 0x03#8
  | .fxInt => 0x04#8
  | .fxFrac => 0x05#8
  | .fxFloor => 0x06#8
  | .fxCeil => 0x07#8
  | .fxAdd => 0x08#8
  | .fxSub => 0x09#8
  | .fxMul => 0x0A#8
  | .fxDiv => 0x0B#8
  | .fxLt => 0x10#8
  | .fxLe => 0x11#8
  | .fxGt => 0x12#8
  | .fxGe => 0x13#8
  | .fxEq => 0x14#8
  | .fxNe => 0x15#8
  | .mfZeroF24 => 0x20#8
  | .mfZeroF20 => 0x60#8
  | .mfZeroF16 => 0xA0#8
  | .mfFromrawF24 => 0x21#8
  | .mfFromrawF20 => 0x61#8
  | .mfFromrawF16 => 0xA1#8
  | .mfFromf32F24 => 0x22#8
  | .mfFromf32F20 => 0x62#8
  | .mfFromf32F16 => 0xA2#8
  | .mfTorawF24 => 0x23#8
  | .mfTorawF20 => 0x63#8
  | .mfTorawF16 => 0xA3#8
  | .mfNegF24 => 0x24#8
  | .mfNegF20 => 0x64#8
  | .mfNegF16 => 0xA4#8
  | .mfAddF24 => 0x28#8
  | .mfAddF20 => 0x68#8
  | .mfAddF16 => 0xA8#8
  | .mfSubF24 => 0x29#8
  | .mfSubF20 => 0x69#8
  | .mfSubF16 => 0xA9#8
  | .mfMulF24 => 0x2A#8
  | .mfMulF20 => 0x6A#8
  | .mfMulF16 => 0xAA#8
  | .mfDivF24 => 0x2B#8
  | .mfDivF20 => 0x6B#8
  | .mfDivF16 => 0xAB#8
  | .mfLtF24 => 0x30#8
  | .mfLtF20 => 0x70#8
  | .mfLtF16 => 0xB0#8
  | .mfLeF24 => 0x31#8
  | .mfLeF20 => 0x71#8
  | .mfLeF16 => 0xB1#8
  | .mfGtF24 => 0x32#8
  | .mfGtF20 => 0x72#8
  | .mfGtF16 => 0xB2#8
  | .mfGeF24 => 0x33#8
  | .mfGeF20 => 0x73#8
  | .mfGeF16 => 0xB3#8
  | .mfEqF24 => 0x34#8
  | .mfEqF20 => 0x74#8
  | .mfEqF16 => 0xB4#8
  | .mfNeF24 => 0x35#8
  | .mfNeF20 => 0x75#8
  | .mfNeF16 => 0xB5#8

/-- What the decoder reads from an instruction whose bits are `w`. A command is one byte (30_encoding.md R60, R67):
bits 7..0 of `w` go to `cmd`, and a bit above them belongs to no command (log entry 6), so `_nbits` changes nothing. -/
def decodeTableWord (_nbits w : Nat) : Option Instr :=
  match decode (BitVec.ofNat 8 w) with
  | .ok i => some i
  | .error _ => none

end Sys2Proof
end

