-- ==== Sys2Proof/Machine/Ops.lean ====
section
/-! DEFINITION. The named operations over the ports: sampling a request and driving its response, a fault among them.
There are no registers and no memory to operate on (10_state.md R23, R30). A fault is driven by ONE shared operation;
nothing is saved, so there is no return from it (60_exceptions.md R257, R258). -/

namespace Sys2Proof.Machine

/-- What a meaning answers. -/
abbrev Outcome := Host.Outcome State Fault Refusal

/-- The code of a fault on port `cause` (60_exceptions.md R252). -/
def Fault.code : Fault → BitVec 3
  | .illegalOp => 0b001#3
  | .operandRange => 0b010#3
  | .divByZero => 0b011#3
  | .floatNotFinite => 0b100#3
  | .encodeRange => 0b101#3

/-- The fault that a code on port `cause` names; `0b000`, `0b110` and `0b111` name none (60_exceptions.md R252). -/
def Fault.ofCode (c : BitVec 3) : Option Fault :=
  match c.toNat with
  | 1 => some .illegalOp
  | 2 => some .operandRange
  | 3 => some .divByZero
  | 4 => some .floatNotFinite
  | 5 => some .encodeRange
  | _ => none

/-- Some NaN pattern made from a draw: a NaN is drawn as it is, so every NaN pattern can come out, and any other word
becomes one, so nothing but a NaN does (43_minifloat_arithmetic.md R198). -/
def nanOf (w : Word) : F32 := if isNan w then w else w ||| 0x7FC00000#32

/-- The host places a request on the ports (10_state.md R21; 60_exceptions.md R266). -/
def State.present (s : State) (cmd : Byte) (a b : Word) : State := { s with cmd := cmd, a := a, b := b }

/-- The command byte of the request on the ports: it comes with the request, nothing is fetched from a memory
(20_memory.md R49). -/
def State.command (s : State) : Byte := s.cmd

/-- Drives the response `err = 0` with this `y` (10_state.md R22). The request ports are the host's and stay. -/
def State.driveOk (s : State) (y : Word) : State :=
  { s with y := y, err := 0#1, cause := 0#3, draws := s.draws + 1 }

/-- Drives the response `err = 1` with this cause; `y` carries no information, so it is a free value, and nothing else
changes (60_exceptions.md R251, R257; log entry 1). -/
def State.driveFault (s : State) (cmd : Byte) (c : Fault) : State :=
  { s with y := Config.faultY s.draws cmd s.a s.b, err := 1#1, cause := c.code, draws := s.draws + 1 }

/-- Answers the request on the ports, carrying the command byte `cmd`, with the response `r`. -/
def State.answer (s : State) (cmd : Byte) (r : Response) : Outcome :=
  match r with
  | .ok y => .next (s.driveOk y)
  | .anyNan => .next (s.driveOk (nanOf (Config.nanDraw s.draws cmd s.a s.b)))
  | .fault c => .next (s.driveFault cmd c)

/-- Answers a request whose command byte is reserved: ILLEGAL_OP, whatever `a` and `b` hold (30_encoding.md R66). -/
def State.rejectCommand (s : State) : Outcome := s.answer s.command (.fault .illegalOp)

end Sys2Proof.Machine
end

