-- ==== Sys2Proof/Machine/FxAccess.lean ====
section
/-! DEFINITION. FX accessors: FX.INT, FX.FRAC, FX.FLOOR, FX.CEIL (40_fixed_point_12_4.md R105 to R108). One definition per operation. -/

namespace Sys2Proof.Machine

/-- `FX.INT` (40_fixed_point_12_4.md R105). -/
def execFxInt (s : State) : Outcome :=
  s.answer (encode .fxInt) (withFx1 s.a fun A => .ok (placeFx (fxIntPart A)))

/-- `FX.FRAC` (40_fixed_point_12_4.md R106). -/
def execFxFrac (s : State) : Outcome :=
  s.answer (encode .fxFrac) (withFx1 s.a fun A => .ok (placeFx (fxFracPart A)))

/-- `FX.FLOOR` (40_fixed_point_12_4.md R107). -/
def execFxFloor (s : State) : Outcome :=
  s.answer (encode .fxFloor) (withFx1 s.a fun A => .ok (placeFx (fxFloor A)))

/-- `FX.CEIL` (40_fixed_point_12_4.md R108). -/
def execFxCeil (s : State) : Outcome :=
  s.answer (encode .fxCeil) (withFx1 s.a fun A => .ok (placeFx (fxCeil A)))

end Sys2Proof.Machine
end

