-- ==== Sys2Proof/Machine/FxArith.lean ====
section
/-! DEFINITION. FX arithmetic: FX.ADD, FX.SUB, FX.MUL, FX.DIV (40_fixed_point_12_4.md R109 to R112). One definition per operation. -/

namespace Sys2Proof.Machine

/-- `FX.ADD` (40_fixed_point_12_4.md R109). -/
def execFxAdd (s : State) : Outcome :=
  s.answer (encode .fxAdd) (withFx2 s.a s.b fun A B => .ok (placeFx (fxAdd A B)))

/-- `FX.SUB` (40_fixed_point_12_4.md R110). -/
def execFxSub (s : State) : Outcome :=
  s.answer (encode .fxSub) (withFx2 s.a s.b fun A B => .ok (placeFx (fxSub A B)))

/-- `FX.MUL` (40_fixed_point_12_4.md R111). -/
def execFxMul (s : State) : Outcome :=
  s.answer (encode .fxMul) (withFx2 s.a s.b fun A B => .ok (placeFx (fxMul A B)))

/-- `FX.DIV` (40_fixed_point_12_4.md R112). -/
def execFxDiv (s : State) : Outcome :=
  s.answer (encode .fxDiv) (withFx2 s.a s.b fun A B => fxDiv A B)

end Sys2Proof.Machine
end

