-- ==== Sys2Proof/Machine/Flags.lean ====
section
/-! DEFINITION. NUMCORE has no flags, condition codes or IEEE status flags (10_state.md R25;
43_minifloat_arithmetic.md R197): no operation computes one. What takes their place is the Boolean of a comparison
(30_encoding.md R65); the signed comparisons of FX stand here, those of binary32 in Machine/Binary32.lean. -/

namespace Sys2Proof.Machine

/-- `sA < sB` (40_fixed_point_12_4.md R113). -/
def fxLt (A B : Fx) : Bool := sint A < sint B

/-- `sA <= sB` (40_fixed_point_12_4.md R114). -/
def fxLe (A B : Fx) : Bool := sint A ≤ sint B

/-- `sA > sB` (40_fixed_point_12_4.md R115). -/
def fxGt (A B : Fx) : Bool := sint A > sint B

/-- `sA >= sB` (40_fixed_point_12_4.md R116). -/
def fxGe (A B : Fx) : Bool := sint A ≥ sint B

/-- `A == B` (40_fixed_point_12_4.md R117). -/
def fxEq (A B : Fx) : Bool := A == B

/-- `A != B` (40_fixed_point_12_4.md R118). -/
def fxNe (A B : Fx) : Bool := A != B

end Sys2Proof.Machine
end

