-- ==== Sys2Proof/Machine/FxCompare.lean ====
section
/-! DEFINITION. FX comparison: FX.LT, FX.LE, FX.GT, FX.GE, FX.EQ, FX.NE (40_fixed_point_12_4.md R113 to R118). One definition per operation. -/

namespace Sys2Proof.Machine

/-- `FX.LT` (40_fixed_point_12_4.md R113). -/
def execFxLt (s : State) : Outcome :=
  s.answer (encode .fxLt) (withFx2 s.a s.b fun A B => .ok (placeBool (fxLt A B)))

/-- `FX.LE` (40_fixed_point_12_4.md R114). -/
def execFxLe (s : State) : Outcome :=
  s.answer (encode .fxLe) (withFx2 s.a s.b fun A B => .ok (placeBool (fxLe A B)))

/-- `FX.GT` (40_fixed_point_12_4.md R115). -/
def execFxGt (s : State) : Outcome :=
  s.answer (encode .fxGt) (withFx2 s.a s.b fun A B => .ok (placeBool (fxGt A B)))

/-- `FX.GE` (40_fixed_point_12_4.md R116). -/
def execFxGe (s : State) : Outcome :=
  s.answer (encode .fxGe) (withFx2 s.a s.b fun A B => .ok (placeBool (fxGe A B)))

/-- `FX.EQ` (40_fixed_point_12_4.md R117). -/
def execFxEq (s : State) : Outcome :=
  s.answer (encode .fxEq) (withFx2 s.a s.b fun A B => .ok (placeBool (fxEq A B)))

/-- `FX.NE` (40_fixed_point_12_4.md R118). -/
def execFxNe (s : State) : Outcome :=
  s.answer (encode .fxNe) (withFx2 s.a s.b fun A B => .ok (placeBool (fxNe A B)))

end Sys2Proof.Machine
end

