-- ==== Sys2Proof/Machine/FxConstruct.lean ====
section
/-! DEFINITION. FX construction: FX.ZERO, FX.FROMRAW, FX.FROMINT, FX.FROMFLOAT (40_fixed_point_12_4.md R101 to R104). One definition per operation. -/

namespace Sys2Proof.Machine

/-- `FX.ZERO` (40_fixed_point_12_4.md R101). -/
def execFxZero (s : State) : Outcome :=
  s.answer (encode .fxZero) (.ok 0x00000000#32)

/-- `FX.FROMRAW` (40_fixed_point_12_4.md R102). -/
def execFxFromraw (s : State) : Outcome :=
  s.answer (encode .fxFromraw) (withFx1 s.a fun A => .ok (placeFx A))

/-- `FX.FROMINT` (40_fixed_point_12_4.md R103). -/
def execFxFromint (s : State) : Outcome :=
  s.answer (encode .fxFromint) (withFx2 s.a s.b fun A B => .ok (placeFx (fxFromInt A B)))

/-- `FX.FROMFLOAT` (40_fixed_point_12_4.md R104). -/
def execFxFromfloat (s : State) : Outcome :=
  s.answer (encode .fxFromfloat) (fxFromFloat s.config.fxRoundTies s.a)

end Sys2Proof.Machine
end

