-- ==== Sys2Proof/Machine/MiniFloat.lean ====
section
/-! DEFINITION. The minifloat decoder and encoder, each ONE definition over (M, E) (44_format_converter_chain.md R233),
and the zero quirk of MF.MUL. The formats a command can select are `Format`'s three (00_scope.md R8). -/

namespace Sys2Proof.Machine

/-- MF.FROMRAW of a pattern of M + E + 1 bits, the source's five steps (41_minifloat_decoder.md R151). -/
def fromRaw (M E : Nat) (bits : BitVec (M + E + 1)) : F32 :=
  let s := bits.getLsbD (M + E)
  let exponent := (bits.extractLsb' M E).toNat
  let mantissa := bits.extractLsb' 0 M
  if bits.extractLsb' 0 (M + E) ≠ 0#(M + E) then
    assemble s (BitVec.ofNat 8 (exponent + bias E)) (mantissa.setWidth 23 <<< (23 - M))
  else zeroOf s

/-- MF.TORAW of a binary32 pattern: the zero of its sign, ENCODE_RANGE, or the sign, the exponent without the bias and
the top M mantissa bits, zero-extended (42_minifloat_encoder.md R172). -/
def toRaw (M E : Nat) (a : F32) : Response :=
  let s : BitVec (M + E + 1) := (BitVec.ofBool (sgn a)).setWidth (M + E + 1) <<< (M + E)
  if isZero a then .ok (s.setWidth 32)
  else if ex a < bias E ∨ ex a > bias E + 2 ^ E - 1 then .fault .encodeRange
  else
    let exponent : BitVec (M + E + 1) := BitVec.ofNat (M + E + 1) (ex a - bias E)
    let mantissa : BitVec (M + E + 1) := BitVec.ofNat (M + E + 1) (fr a >>> (23 - M))
    .ok ((s ||| exponent <<< M ||| mantissa).setWidth 32)

/-- The product of MF.MUL: forced to +0.0 where one operand is a zero and the other is no NaN, infinities included;
otherwise the binary32 product (43_minifloat_arithmetic.md R204). -/
def mfMul (A B : F32) : Response :=
  if (isZero A && !isNan B) || (isZero B && !isNan A) then .ok plusZero else f32Mul A B

end Sys2Proof.Machine
end

