-- ==== Sys2Proof/Machine/MfArith.lean ====
section
/-! DEFINITION. MF constant, unary and arithmetic: MF.ZERO, MF.NEG, MF.ADD, MF.SUB, MF.MUL, MF.DIV (43_minifloat_arithmetic.md R200 to R205), in the three formats, on which no result depends (R213). One definition per operation. -/

namespace Sys2Proof.Machine

/-- `MF.ZERO.f24` (43_minifloat_arithmetic.md R200). -/
def execMfZeroF24 (s : State) : Outcome :=
  s.answer (encode .mfZeroF24) (.ok plusZero)

/-- `MF.ZERO.f20` (43_minifloat_arithmetic.md R200). -/
def execMfZeroF20 (s : State) : Outcome :=
  s.answer (encode .mfZeroF20) (.ok plusZero)

/-- `MF.ZERO.f16` (43_minifloat_arithmetic.md R200). -/
def execMfZeroF16 (s : State) : Outcome :=
  s.answer (encode .mfZeroF16) (.ok plusZero)

/-- `MF.NEG.f24` (43_minifloat_arithmetic.md R201). -/
def execMfNegF24 (s : State) : Outcome :=
  s.answer (encode .mfNegF24) (.ok (f32Neg s.a))

/-- `MF.NEG.f20` (43_minifloat_arithmetic.md R201). -/
def execMfNegF20 (s : State) : Outcome :=
  s.answer (encode .mfNegF20) (.ok (f32Neg s.a))

/-- `MF.NEG.f16` (43_minifloat_arithmetic.md R201). -/
def execMfNegF16 (s : State) : Outcome :=
  s.answer (encode .mfNegF16) (.ok (f32Neg s.a))

/-- `MF.ADD.f24` (43_minifloat_arithmetic.md R202). -/
def execMfAddF24 (s : State) : Outcome :=
  s.answer (encode .mfAddF24) (f32Add s.a s.b)

/-- `MF.ADD.f20` (43_minifloat_arithmetic.md R202). -/
def execMfAddF20 (s : State) : Outcome :=
  s.answer (encode .mfAddF20) (f32Add s.a s.b)

/-- `MF.ADD.f16` (43_minifloat_arithmetic.md R202). -/
def execMfAddF16 (s : State) : Outcome :=
  s.answer (encode .mfAddF16) (f32Add s.a s.b)

/-- `MF.SUB.f24` (43_minifloat_arithmetic.md R203). -/
def execMfSubF24 (s : State) : Outcome :=
  s.answer (encode .mfSubF24) (f32Sub s.a s.b)

/-- `MF.SUB.f20` (43_minifloat_arithmetic.md R203). -/
def execMfSubF20 (s : State) : Outcome :=
  s.answer (encode .mfSubF20) (f32Sub s.a s.b)

/-- `MF.SUB.f16` (43_minifloat_arithmetic.md R203). -/
def execMfSubF16 (s : State) : Outcome :=
  s.answer (encode .mfSubF16) (f32Sub s.a s.b)

/-- `MF.MUL.f24` (43_minifloat_arithmetic.md R204). -/
def execMfMulF24 (s : State) : Outcome :=
  s.answer (encode .mfMulF24) (mfMul s.a s.b)

/-- `MF.MUL.f20` (43_minifloat_arithmetic.md R204). -/
def execMfMulF20 (s : State) : Outcome :=
  s.answer (encode .mfMulF20) (mfMul s.a s.b)

/-- `MF.MUL.f16` (43_minifloat_arithmetic.md R204). -/
def execMfMulF16 (s : State) : Outcome :=
  s.answer (encode .mfMulF16) (mfMul s.a s.b)

/-- `MF.DIV.f24` (43_minifloat_arithmetic.md R205). -/
def execMfDivF24 (s : State) : Outcome :=
  s.answer (encode .mfDivF24) (f32Div s.a s.b)

/-- `MF.DIV.f20` (43_minifloat_arithmetic.md R205). -/
def execMfDivF20 (s : State) : Outcome :=
  s.answer (encode .mfDivF20) (f32Div s.a s.b)

/-- `MF.DIV.f16` (43_minifloat_arithmetic.md R205). -/
def execMfDivF16 (s : State) : Outcome :=
  s.answer (encode .mfDivF16) (f32Div s.a s.b)

end Sys2Proof.Machine
end

