-- ==== Sys2Proof/Machine/MfCompare.lean ====
section
/-! DEFINITION. MF comparison: MF.LT, MF.LE, MF.GT, MF.GE, MF.EQ, MF.NE (43_minifloat_arithmetic.md R206 to R211), in the three formats, on which no result depends (R213). One definition per operation. -/

namespace Sys2Proof.Machine

/-- `MF.LT.f24` (43_minifloat_arithmetic.md R206). -/
def execMfLtF24 (s : State) : Outcome :=
  s.answer (encode .mfLtF24) (.ok (placeBool (f32Lt s.a s.b)))

/-- `MF.LT.f20` (43_minifloat_arithmetic.md R206). -/
def execMfLtF20 (s : State) : Outcome :=
  s.answer (encode .mfLtF20) (.ok (placeBool (f32Lt s.a s.b)))

/-- `MF.LT.f16` (43_minifloat_arithmetic.md R206). -/
def execMfLtF16 (s : State) : Outcome :=
  s.answer (encode .mfLtF16) (.ok (placeBool (f32Lt s.a s.b)))

/-- `MF.LE.f24` (43_minifloat_arithmetic.md R207). -/
def execMfLeF24 (s : State) : Outcome :=
  s.answer (encode .mfLeF24) (.ok (placeBool (f32Le s.a s.b)))

/-- `MF.LE.f20` (43_minifloat_arithmetic.md R207). -/
def execMfLeF20 (s : State) : Outcome :=
  s.answer (encode .mfLeF20) (.ok (placeBool (f32Le s.a s.b)))

/-- `MF.LE.f16` (43_minifloat_arithmetic.md R207). -/
def execMfLeF16 (s : State) : Outcome :=
  s.answer (encode .mfLeF16) (.ok (placeBool (f32Le s.a s.b)))

/-- `MF.GT.f24` (43_minifloat_arithmetic.md R208). -/
def execMfGtF24 (s : State) : Outcome :=
  s.answer (encode .mfGtF24) (.ok (placeBool (f32Lt s.b s.a)))

/-- `MF.GT.f20` (43_minifloat_arithmetic.md R208). -/
def execMfGtF20 (s : State) : Outcome :=
  s.answer (encode .mfGtF20) (.ok (placeBool (f32Lt s.b s.a)))

/-- `MF.GT.f16` (43_minifloat_arithmetic.md R208). -/
def execMfGtF16 (s : State) : Outcome :=
  s.answer (encode .mfGtF16) (.ok (placeBool (f32Lt s.b s.a)))

/-- `MF.GE.f24` (43_minifloat_arithmetic.md R209). -/
def execMfGeF24 (s : State) : Outcome :=
  s.answer (encode .mfGeF24) (.ok (placeBool (f32Le s.b s.a)))

/-- `MF.GE.f20` (43_minifloat_arithmetic.md R209). -/
def execMfGeF20 (s : State) : Outcome :=
  s.answer (encode .mfGeF20) (.ok (placeBool (f32Le s.b s.a)))

/-- `MF.GE.f16` (43_minifloat_arithmetic.md R209). -/
def execMfGeF16 (s : State) : Outcome :=
  s.answer (encode .mfGeF16) (.ok (placeBool (f32Le s.b s.a)))

/-- `MF.EQ.f24` (43_minifloat_arithmetic.md R210). -/
def execMfEqF24 (s : State) : Outcome :=
  s.answer (encode .mfEqF24) (.ok (placeBool (f32Eq s.a s.b)))

/-- `MF.EQ.f20` (43_minifloat_arithmetic.md R210). -/
def execMfEqF20 (s : State) : Outcome :=
  s.answer (encode .mfEqF20) (.ok (placeBool (f32Eq s.a s.b)))

/-- `MF.EQ.f16` (43_minifloat_arithmetic.md R210). -/
def execMfEqF16 (s : State) : Outcome :=
  s.answer (encode .mfEqF16) (.ok (placeBool (f32Eq s.a s.b)))

/-- `MF.NE.f24` (43_minifloat_arithmetic.md R211). -/
def execMfNeF24 (s : State) : Outcome :=
  s.answer (encode .mfNeF24) (.ok (placeBool (!f32Eq s.a s.b)))

/-- `MF.NE.f20` (43_minifloat_arithmetic.md R211). -/
def execMfNeF20 (s : State) : Outcome :=
  s.answer (encode .mfNeF20) (.ok (placeBool (!f32Eq s.a s.b)))

/-- `MF.NE.f16` (43_minifloat_arithmetic.md R211). -/
def execMfNeF16 (s : State) : Outcome :=
  s.answer (encode .mfNeF16) (.ok (placeBool (!f32Eq s.a s.b)))

end Sys2Proof.Machine
end

