-- ==== Sys2Proof/Machine/MfConvert.lean ====
section
/-! DEFINITION. MF conversion: MF.FROMRAW (41_minifloat_decoder.md R151), MF.FROMF32 and MF.TORAW (42_minifloat_encoder.md R171, R172), in the three formats. One definition per operation. -/

namespace Sys2Proof.Machine

/-- `MF.FROMRAW.f24` (41_minifloat_decoder.md R151). -/
def execMfFromrawF24 (s : State) : Outcome :=
  s.answer (encode .mfFromrawF24) (withOperand Format.f24.W s.a fun bits => .ok (fromRaw Format.f24.M Format.f24.E bits))

/-- `MF.FROMRAW.f20` (41_minifloat_decoder.md R151). -/
def execMfFromrawF20 (s : State) : Outcome :=
  s.answer (encode .mfFromrawF20) (withOperand Format.f20.W s.a fun bits => .ok (fromRaw Format.f20.M Format.f20.E bits))

/-- `MF.FROMRAW.f16` (41_minifloat_decoder.md R151). -/
def execMfFromrawF16 (s : State) : Outcome :=
  s.answer (encode .mfFromrawF16) (withOperand Format.f16.W s.a fun bits => .ok (fromRaw Format.f16.M Format.f16.E bits))

/-- `MF.FROMF32.f24` (42_minifloat_encoder.md R171). -/
def execMfFromf32F24 (s : State) : Outcome :=
  s.answer (encode .mfFromf32F24) (.ok s.a)

/-- `MF.FROMF32.f20` (42_minifloat_encoder.md R171). -/
def execMfFromf32F20 (s : State) : Outcome :=
  s.answer (encode .mfFromf32F20) (.ok s.a)

/-- `MF.FROMF32.f16` (42_minifloat_encoder.md R171). -/
def execMfFromf32F16 (s : State) : Outcome :=
  s.answer (encode .mfFromf32F16) (.ok s.a)

/-- `MF.TORAW.f24` (42_minifloat_encoder.md R172). -/
def execMfTorawF24 (s : State) : Outcome :=
  s.answer (encode .mfTorawF24) (toRaw Format.f24.M Format.f24.E s.a)

/-- `MF.TORAW.f20` (42_minifloat_encoder.md R172). -/
def execMfTorawF20 (s : State) : Outcome :=
  s.answer (encode .mfTorawF20) (toRaw Format.f20.M Format.f20.E s.a)

/-- `MF.TORAW.f16` (42_minifloat_encoder.md R172). -/
def execMfTorawF16 (s : State) : Outcome :=
  s.answer (encode .mfTorawF16) (toRaw Format.f16.M Format.f16.E s.a)

end Sys2Proof.Machine
end

