-- ==== Sys2Proof/Machine/Dispatch.lean ====
section
/-! DEFINITION. One arm per operation (30_encoding.md R62), each one direct call of its meaning. -/

namespace Sys2Proof.Machine

/-- The meaning of each operation, on the request that is on the ports (10_state.md R20). -/
def exec (i : Instr) (s : State) : Host.Outcome State Fault Refusal :=
  match i with
  | .fxZero => Sys2Proof.Machine.execFxZero s
  | .fxFromraw => Sys2Proof.Machine.execFxFromraw s
  | .fxFromint => Sys2Proof.Machine.execFxFromint s
  | .fxFromfloat => Sys2Proof.Machine.execFxFromfloat s
  | .fxInt => Sys2Proof.Machine.execFxInt s
  | .fxFrac => Sys2Proof.Machine.execFxFrac s
  | .fxFloor => Sys2Proof.Machine.execFxFloor s
  | .fxCeil => Sys2Proof.Machine.execFxCeil s
  | .fxAdd => Sys2Proof.Machine.execFxAdd s
  | .fxSub => Sys2Proof.Machine.execFxSub s
  | .fxMul => Sys2Proof.Machine.execFxMul s
  | .fxDiv => Sys2Proof.Machine.execFxDiv s
  | .fxLt => Sys2Proof.Machine.execFxLt s
  | .fxLe => Sys2Proof.Machine.execFxLe s
  | .fxGt => Sys2Proof.Machine.execFxGt s
  | .fxGe => Sys2Proof.Machine.execFxGe s
  | .fxEq => Sys2Proof.Machine.execFxEq s
  | .fxNe => Sys2Proof.Machine.execFxNe s
  | .mfZeroF24 => Sys2Proof.Machine.execMfZeroF24 s
  | .mfZeroF20 => Sys2Proof.Machine.execMfZeroF20 s
  | .mfZeroF16 => Sys2Proof.Machine.execMfZeroF16 s
  | .mfFromrawF24 => Sys2Proof.Machine.execMfFromrawF24 s
  | .mfFromrawF20 => Sys2Proof.Machine.execMfFromrawF20 s
  | .mfFromrawF16 => Sys2Proof.Machine.execMfFromrawF16 s
  | .mfFromf32F24 => Sys2Proof.Machine.execMfFromf32F24 s
  | .mfFromf32F20 => Sys2Proof.Machine.execMfFromf32F20 s
  | .mfFromf32F16 => Sys2Proof.Machine.execMfFromf32F16 s
  | .mfTorawF24 => Sys2Proof.Machine.execMfTorawF24 s
  | .mfTorawF20 => Sys2Proof.Machine.execMfTorawF20 s
  | .mfTorawF16 => Sys2Proof.Machine.execMfTorawF16 s
  | .mfNegF24 => Sys2Proof.Machine.execMfNegF24 s
  | .mfNegF20 => Sys2Proof.Machine.execMfNegF20 s
  | .mfNegF16 => Sys2Proof.Machine.execMfNegF16 s
  | .mfAddF24 => Sys2Proof.Machine.execMfAddF24 s
  | .mfAddF20 => Sys2Proof.Machine.execMfAddF20 s
  | .mfAddF16 => Sys2Proof.Machine.execMfAddF16 s
  | .mfSubF24 => Sys2Proof.Machine.execMfSubF24 s
  | .mfSubF20 => Sys2Proof.Machine.execMfSubF20 s
  | .mfSubF16 => Sys2Proof.Machine.execMfSubF16 s
  | .mfMulF24 => Sys2Proof.Machine.execMfMulF24 s
  | .mfMulF20 => Sys2Proof.Machine.execMfMulF20 s
  | .mfMulF16 => Sys2Proof.Machine.execMfMulF16 s
  | .mfDivF24 => Sys2Proof.Machine.execMfDivF24 s
  | .mfDivF20 => Sys2Proof.Machine.execMfDivF20 s
  | .mfDivF16 => Sys2Proof.Machine.execMfDivF16 s
  | .mfLtF24 => Sys2Proof.Machine.execMfLtF24 s
  | .mfLtF20 => Sys2Proof.Machine.execMfLtF20 s
  | .mfLtF16 => Sys2Proof.Machine.execMfLtF16 s
  | .mfLeF24 => Sys2Proof.Machine.execMfLeF24 s
  | .mfLeF20 => Sys2Proof.Machine.execMfLeF20 s
  | .mfLeF16 => Sys2Proof.Machine.execMfLeF16 s
  | .mfGtF24 => Sys2Proof.Machine.execMfGtF24 s
  | .mfGtF20 => Sys2Proof.Machine.execMfGtF20 s
  | .mfGtF16 => Sys2Proof.Machine.execMfGtF16 s
  | .mfGeF24 => Sys2Proof.Machine.execMfGeF24 s
  | .mfGeF20 => Sys2Proof.Machine.execMfGeF20 s
  | .mfGeF16 => Sys2Proof.Machine.execMfGeF16 s
  | .mfEqF24 => Sys2Proof.Machine.execMfEqF24 s
  | .mfEqF20 => Sys2Proof.Machine.execMfEqF20 s
  | .mfEqF16 => Sys2Proof.Machine.execMfEqF16 s
  | .mfNeF24 => Sys2Proof.Machine.execMfNeF24 s
  | .mfNeF20 => Sys2Proof.Machine.execMfNeF20 s
  | .mfNeF16 => Sys2Proof.Machine.execMfNeF16 s

end Sys2Proof.Machine
end

