-- ==== Sys2Proof/Machine/Step.lean ====
section
/-! DEFINITION. One step: the request on the ports is answered (10_state.md R20, R21; 70_reset_and_hazards.md R287). -/

namespace Sys2Proof.Machine

/-- One request, one response. A reserved command byte faults with ILLEGAL_OP before anything else is looked at
(60_exceptions.md R253). -/
def step (s : State) : Host.Outcome State Fault Refusal :=
  match decode s.command with
  | .ok i => exec i s
  | .error _ => s.rejectCommand

/-- The state with the instruction whose bits are `w` where the next step takes it from: port `cmd`. Nothing is fetched
(20_memory.md R49), and a command is one byte (30_encoding.md R67), so `_nbits` changes nothing (log entries 6, 7). -/
def State.withFetchWord (s : State) (_nbits w : Nat) : State :=
  s.present (BitVec.ofNat 8 w) s.a s.b

end Sys2Proof.Machine
end

