-- ==== Sys2Proof/Machine/Run.lean ====
section
/-! DEFINITION. The host's side: a run is a finite list of requests, each operand a literal or the `y` of an earlier
request (70_reset_and_hazards.md R289; 30_encoding.md R80, R82). The temporaries are the host's, not NUMCORE's
(10_state.md R23), so they stand beside State. A run ends at its first fault, as a fault outcome that carries no value
(60_exceptions.md R251). -/

namespace Sys2Proof.Machine

/-- The binary32 pattern nearest a decimal literal (30_encoding.md R80); a tie goes to the even pattern
(log entry 9). -/
def decimalF32 (neg : Bool) (digits places : Nat) : F32 :=
  if digits = 0 then zeroOf neg else roundF32 neg (digits * 2 ^ 149) (10 ^ places)

/-- The host's temporaries with their last binding first. -/
abbrev Temps := List (Nat × Word)

/-- What the host puts on a port for this source, or the temporary that no earlier request wrote
(30_encoding.md R80). R80 gives a decimal integer a meaning for an `i16` operand only. That `n` is `trunc_16(n)` on every
other port too, the `u16` fracPart of FX.FROMINT among them, so that `n` outside 0 to 65535 is truncated there and not
refused, is DESIGN CHOICE (log entry 10). -/
def sourceValue (temps : Temps) : Source → Except Nat Word
  | .bits w => .ok w
  | .int n => .ok (placeFx (trunc16 n))
  | .decimal neg digits places => .ok (decimalF32 neg digits places)
  | .temp t =>
    match temps.lookup t with
    | some w => .ok w
    | none => .error t

/-- A run under way: the machine, the host's temporaries, and the `y` values so far in order, which are the observable
result of a run (70_reset_and_hazards.md R289). -/
structure HostRun where
  /-- The NUMCORE that the host drives. -/
  machine : State
  /-- The host's temporaries. -/
  temps : Temps
  /-- The `y` of every request so far. -/
  results : List Word
deriving DecidableEq, Repr

/-- A run that has issued no request: the temporaries are unset (95_test_vectors.md section 3). -/
def HostRun.start (s : State) : HostRun := { machine := s, temps := [], results := [] }

/-- What the host makes of a response: `y` moves into the destination, unless the request faulted, in which case the
run stops there with the fault recorded (30_encoding.md R80; 60_exceptions.md R251). -/
def HostRun.receive (r : HostRun) (dest : Nat) (s : State) : Host.Outcome HostRun Fault Refusal :=
  if s.err = 0#1 then
    .next { machine := s, temps := (dest, s.y) :: r.temps, results := r.results ++ [s.y] }
  else
    match Fault.ofCode s.cause with
    | some c => .fault c
    | none => .refused (.reservedCause s.cause)

/-- One line: the operands are read before the response exists, so a destination may be a source
(70_reset_and_hazards.md R285). -/
def HostRun.line (r : HostRun) (l : Line) : Host.Outcome HostRun Fault Refusal :=
  match sourceValue r.temps l.a, sourceValue r.temps l.b with
  | .error t, _ => .refused (.unsetTemporary t)
  | .ok _, .error t => .refused (.unsetTemporary t)
  | .ok a, .ok b =>
    match step (r.machine.present l.cmd a b) with
    | .next s => r.receive l.dest s
    | .fault c => .fault c
    | .refused x => .refused x

/-- The lines in order, to the last one or to the first fault (70_reset_and_hazards.md R289). -/
def HostRun.lines (r : HostRun) : List Line → Host.Outcome HostRun Fault Refusal
  | [] => .next r
  | l :: ls =>
    match r.line l with
    | .next r' => r'.lines ls
    | .fault c => .fault c
    | .refused x => .refused x

/-- The one request a pseudo-instruction stands for (30_encoding.md R82; 40_fixed_point_12_4.md R119). -/
def expandPseudo : Pseudo → Line
  | .fromint t i => ⟨t, encode .fxFromint, i, .bits 0#32⟩
  | .adda t s => ⟨t, encode .fxAdd, .temp t, s⟩
  | .suba t s => ⟨t, encode .fxSub, .temp t, s⟩
  | .mula t s => ⟨t, encode .fxMul, .temp t, s⟩
  | .diva t s => ⟨t, encode .fxDiv, .temp t, s⟩

end Sys2Proof.Machine
end

