-- ==== Sys2Proof/WellFormed.lean ====
section
/-! DEFINITION. Well-formedness. An `Instr` has no operand fields (30_encoding.md R60), so each of the 63 is well
formed as it stands; what can be ill formed is what the host must take care of (70_reset_and_hazards.md R286): the
operands of a request, and a line or a list of lines of the host's notation (30_encoding.md R80). -/

namespace Sys2Proof

/-- Every operation of the table is well formed: there is no field to check (30_encoding.md R60, R67). -/
def Instr.wellFormed (_ : Instr) : Bool := true

/-- The operands on the ports are right-justified as the operation needs them (30_encoding.md R63, R64;
70_reset_and_hazards.md R286 (1)). -/
def requestWellFormed (i : Instr) (a b : Word) : Bool :=
  portJustified i.signature.a a && portJustified i.signature.b b

/-- May this source stand for an operand of this type? A literal pattern must be justified (30_encoding.md R64;
70_reset_and_hazards.md R286), and a temporary must have been written by an earlier line (70_reset_and_hazards.md R289).
A decimal integer is accepted for an `i16` operand (30_encoding.md R80). The rest is DESIGN CHOICE. R80 names `i16` alone
for a decimal integer: that one of any size is well formed for a `u16` operand, the fracPart of FX.FROMINT, and ill formed
for every other type is log entry 10. R80 gives a decimal with a point its binary32 pattern and limits it to no type of
operand: that it is well formed for an `f32` operand and ill formed for every other type is log entry 9. A literal on a
port that is not read is not checked (log entries 9 and 10). -/
def sourceWellFormed (written : List Nat) (t : Option ValueType) : Source → Bool
  | .bits w => portJustified t w
  | .int _ => t == some .i16 || t == some .u16 || t.isNone
  | .decimal _ _ _ => t == some .f32 || t.isNone
  | .temp k => written.contains k

/-- A line is well formed after the temporaries `written`: its byte is an operation and its sources fit. -/
def lineWellFormed (written : List Nat) (l : Line) : Bool :=
  match decode l.cmd with
  | .ok i => sourceWellFormed written i.signature.a l.a && sourceWellFormed written i.signature.b l.b
  | .error _ => false

/-- A list of lines is well formed: each line is, after the destinations of the lines before it. -/
def linesWellFormed (written : List Nat) : List Line → Bool
  | [] => true
  | l :: ls => lineWellFormed written l && linesWellFormed (l.dest :: written) ls

/-- The host can read this source: it is a literal, or a temporary that an earlier request wrote
(70_reset_and_hazards.md R289). -/
def sourceSet (written : List Nat) : Source → Bool
  | .temp k => written.contains k
  | _ => true

/-- Each line's byte is an operation and the host can read its sources; whether they fit the operands is not asked. -/
def linesIssuable (written : List Nat) : List Line → Bool
  | [] => true
  | l :: ls => (decode l.cmd).toBool && sourceSet written l.a && sourceSet written l.b &&
      linesIssuable (l.dest :: written) ls

end Sys2Proof
end

