-- ==== Sys2Proof/Safety.lean ====
section
/-! DEFINITION. The terms claims are written in: how a request is answered (each as ONE equation of the next state, so
that it says what changes and that nothing else does), the real values of binary32 patterns as the spec writes them,
correct rounding, the invariant of the response ports, and a run that ends normally. -/

namespace Sys2Proof.Machine

/-- The operation answers a next state with `err = 0` and this `y`; the request ports, the configuration and everything
else stay, but for the model's own counter. -/
def AnswersOk (i : Instr) (s : State) (y : Word) : Prop :=
  exec i s = .next { s with y := y, err := 0#1, cause := 0#3, draws := s.draws + 1 }

/-- The operation answers a next state with `err = 0` and some NaN pattern on `y`; everything else stays, but for the
model's own counter. -/
def AnswersNan (i : Instr) (s : State) : Prop :=
  ∃ y : F32, isNan y = true ∧ AnswersOk i s y

/-- A state after a fault of this code: `err = 1`, the code on `cause`, some word on `y`; everything else stays, but for
the model's own counter (60_exceptions.md R251). -/
def FaultedFrom (s : State) (code : BitVec 3) (t : State) : Prop :=
  ∃ y : Word, t = { s with y := y, err := 1#1, cause := code, draws := s.draws + 1 }

/-- The operation answers a next state that is a fault of this code. -/
def AnswersFault (i : Instr) (s : State) (code : BitVec 3) : Prop :=
  ∃ t, exec i s = .next t ∧ FaultedFrom s code t

/-- The request of this operation with `a` and `b` on the ports is answered with `err = 0` and this `y`. -/
def Gives (i : Instr) (s : State) (a b y : Word) : Prop := AnswersOk i (s.present (encode i) a b) y

/-- The operation answers with this response: the word, some NaN pattern, or the fault's code. -/
def AnswersAs (i : Instr) (s : State) : Response → Prop
  | .ok y => AnswersOk i s y
  | .anyNan => AnswersNan i s
  | .fault c => AnswersFault i s c.code

/-- The *Encoding* of an FX operation: its byte decodes to it, and the same `op` with another `fmt` is reserved
(40_fixed_point_12_4.md R100; 30_encoding.md R66). -/
def FxEncoding (cmd : Byte) (i : Instr) : Prop :=
  decode cmd = .ok i ∧ ∀ c : Byte, opField c = opField cmd → fmtField c ≠ 0#2 → decode c = .error .fxWithFormat

/-- What the template of an FX operation on one 16-bit port says (40_fixed_point_12_4.md R100): its encoding, the
result for every operand, and OPERAND_RANGE for a port above 16 bits. -/
def FxUnary (cmd : Byte) (i : Instr) (f : Fx → Word) : Prop :=
  FxEncoding cmd i ∧ ∀ s : State,
    (∀ A : Fx, s.a = A.setWidth 32 → AnswersOk i s (f A)) ∧
    (2 ^ 16 ≤ s.a.toNat → AnswersFault i s 2#3)

/-- The same for an FX operation on two 16-bit ports, whose result may itself be a fault (40_fixed_point_12_4.md
R100). -/
def FxBinary (cmd : Byte) (i : Instr) (f : Fx → Fx → Response) : Prop :=
  FxEncoding cmd i ∧ ∀ s : State,
    (∀ A B : Fx, s.a = A.setWidth 32 → s.b = B.setWidth 32 → AnswersAs i s (f A B)) ∧
    (2 ^ 16 ≤ s.a.toNat ∨ 2 ^ 16 ≤ s.b.toNat → AnswersFault i s 2#3)

/-- A property of an MF operation in its three formats, with its three command bytes, `c` being that of `.f24`; the
same `op` with `fmt = 0b11` is reserved (30_encoding.md R61, R66; 43_minifloat_arithmetic.md R190). -/
def MfAll (c : Byte) (i24 i20 i16 : Instr) (P : Instr → Prop) : Prop :=
  (decode c = .ok i24 ∧ decode (c + 0x40#8) = .ok i20 ∧ decode (c + 0x80#8) = .ok i16 ∧
    decode (c + 0xC0#8) = .error .reservedFormat) ∧ P i24 ∧ P i20 ∧ P i16

/-- A Boolean on `y` (30_encoding.md R65). -/
def bit (p : Bool) : Word := if p then 1#32 else 0#32

/-- The (fmt, op) pairs that R66 lists as reserved: an unassigned `op` at any `fmt`, an FX `op` with `fmt` other than
`0b00`, an MF `op` with `fmt = 0b11`. -/
abbrev ReservedPair (fmt op : Nat) : Prop :=
  (0x0C ≤ op ∧ op ≤ 0x0F) ∨ (0x16 ≤ op ∧ op ≤ 0x1F) ∨ (0x25 ≤ op ∧ op ≤ 0x27) ∨ (0x2C ≤ op ∧ op ≤ 0x2F) ∨
    (0x36 ≤ op ∧ op ≤ 0x3F) ∨ (op ≤ 0x15 ∧ fmt ≠ 0) ∨ (0x20 ≤ op ∧ fmt = 3)

/-- A command byte that R66 lists as reserved. -/
abbrev ReservedByte (c : Byte) : Prop := ReservedPair (c.toNat / 64) (c.toNat % 64)

/-- The operations whose NaN results are draws: MF.ADD, MF.SUB, MF.MUL and MF.DIV in their three formats. MF.FROMF32 and
MF.NEG move a NaN bit for bit (43_minifloat_arithmetic.md R198, R201). -/
def nanDrawers : List Instr :=
  [.mfAddF24, .mfAddF20, .mfAddF16, .mfSubF24, .mfSubF20, .mfSubF16, .mfMulF24, .mfMulF20, .mfMulF16, .mfDivF24, .mfDivF20,
    .mfDivF16]

/-- Two states show the same response: the same `err` and `cause`, and, where `err = 0`, the same `y` or, only for an
operation that `draws` its NaN results, two NaNs (10_state.md R20; 43_minifloat_arithmetic.md R198; 60_exceptions.md
R251). -/
def SameResponse (draws : Prop) (t u : State) : Prop :=
  t.err = u.err ∧ t.cause = u.cause ∧ (t.err = 0#1 → t.y = u.y ∨ (draws ∧ isNan t.y = true ∧ isNan u.y = true))

/-- The response ports are as the spec says a response is (10_state.md R22; 30_encoding.md R65; 60_exceptions.md R252,
R253): `err = 0` with `cause` 0, a command byte that is an operation, and a `y` that fits its result type; or `err = 1`
with a cause from 1 to 5, which is 1 exactly where the command byte is reserved. -/
def ResponseWellFormed (s : State) : Prop :=
  (s.err = 0#1 ∧ s.cause = 0#3 ∧ ∃ i, decode s.cmd = .ok i ∧ s.y.toNat < 2 ^ i.signature.y.width) ∨
  (s.err = 1#1 ∧ 1 ≤ s.cause.toNat ∧ s.cause.toNat ≤ 5 ∧ (s.cause = 1#3 ↔ ∀ i, decode s.cmd ≠ .ok i))

/-- MF.FROMRAW of a format. -/
def fromrawOp : Format → Instr
  | .f24 => .mfFromrawF24
  | .f20 => .mfFromrawF20
  | .f16 => .mfFromrawF16

/-- MF.TORAW of a format. -/
def torawOp : Format → Instr
  | .f24 => .mfTorawF24
  | .f20 => .mfTorawF20
  | .f16 => .mfTorawF16

/-- The format of an MF.TORAW; `none` for every other operation. -/
def torawFormat (i : Instr) : Option Format :=
  if i = .mfTorawF24 then some .f24
  else if i = .mfTorawF20 then some .f20
  else if i = .mfTorawF16 then some .f16
  else none

/-- `val(f)` of a finite pattern, written as the rule writes it (00_scope.md R11). -/
def realVal (f : F32) : ℚ :=
  (if sgn f then -1 else 1) *
    (if ex f = 0 then (fr f : ℚ) / 2 ^ 23 * 2 ^ (-126 : ℤ) else (1 + (fr f : ℚ) / 2 ^ 23) * 2 ^ ((ex f : ℤ) - 127))

/-- `xval(f)` of a pattern that is no NaN, in the rationals with both infinities (43_minifloat_arithmetic.md R196). -/
def extVal (f : F32) : WithBot (WithTop ℚ) :=
  if isInf f then (if sgn f then ⊥ else ((⊤ : WithTop ℚ) : WithBot (WithTop ℚ))) else ((realVal f : WithTop ℚ) : WithBot (WithTop ℚ))

/-- `y` is `round_f32(r)`, said without computing it (43_minifloat_arithmetic.md R191): the infinity with the sign of
`r` from `2^128 - 2^103` on; below that a finite pattern with the sign of `r` than which no finite pattern is nearer to
`r`, and whose last mantissa bit is 0 where another value is as near. -/
def RoundsTo (r : ℚ) (y : F32) : Prop :=
  (2 ^ 128 - 2 ^ 103 ≤ |r| → y = infOf (decide (r < 0))) ∧
  (|r| < 2 ^ 128 - 2 ^ 103 → isFinite y = true ∧ sgn y = decide (r < 0) ∧
    ∀ g : F32, isFinite g = true →
      |realVal y - r| ≤ |realVal g - r| ∧
      (|realVal y - r| = |realVal g - r| → realVal g ≠ realVal y → fr y % 2 = 0))

/-- The run ends normally, after its last request (70_reset_and_hazards.md R289). -/
def RunsNormally (r : HostRun) (ls : List Line) : Prop := ∃ r', r.lines ls = .next r'

end Sys2Proof.Machine
end

