-- ==== Sys2Proof/Certificates/Slice0/Obligations.lean ====
section
/-! DEFINITION. The statements for the provers, in the order of OBLIGATIONS.json. A statement about an operation gives
the next state as one equation (`AnswersOk`, `AnswersNan`, `AnswersFault`), which says what changes and that nothing
else does; NUMCORE has no register, flag or memory for a frame to name (10_state.md R20). -/

open Sys2Proof Sys2Proof.Machine

/-! ### Decoding, the step, the response ports -/

/-- The step is the meaning of the decoded operation, and adds nothing to it (10_state.md R20). -/
def Obligations.StepRunsDecodedInstruction : Prop :=
  ∀ (s : State) (i : Instr), decode s.cmd = .ok i → i.wellFormed = true → step s = exec i s

/-- R66: every reserved byte faults with ILLEGAL_OP whatever is on `a` and `b`, and no other byte does. -/
def Obligations.ReservedCommandsFault : Prop :=
  ∀ s : State,
    (ReservedByte s.cmd → ∃ t, step s = .next t ∧ FaultedFrom s 1#3 t) ∧
    (¬ ReservedByte s.cmd → ∃ t, step s = .next t ∧ t.cause ≠ 1#3)

/-- Decoding and encoding agree in both directions, and 63 of the 256 bytes decode. -/
def Obligations.DecodeIffEncode : Prop :=
  (∀ (c : Byte) (i : Instr), decode c = .ok i ↔ c = encode i) ∧
  ((List.range 256).filter fun n => (decode (BitVec.ofNat 8 n)).toOption.isSome).length = 63

/-- A few bytes written out bit by bit, `fmt` first and `op` after it, decode to the operations the table gives them. -/
def Obligations.SampleCommandWords : Prop :=
  decode (0b00#2 ++ 0b000000#6) = .ok .fxZero ∧ decode (0b00#2 ++ 0b000101#6) = .ok .fxFrac ∧
  decode (0b00#2 ++ 0b001010#6) = .ok .fxMul ∧ decode (0b00#2 ++ 0b010011#6) = .ok .fxGe ∧
  decode (0b01#2 ++ 0b100001#6) = .ok .mfFromrawF20 ∧ decode (0b10#2 ++ 0b100011#6) = .ok .mfTorawF16 ∧
  decode (0b10#2 ++ 0b101010#6) = .ok .mfMulF16 ∧ decode (0b01#2 ++ 0b110101#6) = .ok .mfNeF20 ∧
  decode (0b01#2 ++ 0b001000#6) = .error .fxWithFormat ∧ decode (0b11#2 ++ 0b101000#6) = .error .reservedFormat ∧
  decode (0b00#2 ++ 0b001100#6) = .error .unassignedOp

/-- An instruction placed where the next step takes it from is what that step runs. -/
def Obligations.PlacedCommandIsStepped : Prop :=
  ∀ (s : State) (n w : Nat) (i : Instr), decodeTableWord n w = some i →
    step (s.withFetchWord n w) = exec i (s.withFetchWord n w)

/-- The reset state satisfies the invariant of the response ports and holds the default configuration. The zeros on the
ports are the MODEL'S CHOICE (log entry 3); the tie rule is the spec's default (log entry 4). -/
def Obligations.ResetResponseWellFormed : Prop :=
  ResponseWellFormed State.reset ∧ State.reset.config.fxRoundTies = .even

/-- Every state has a next state, and the response ports of that next state are as the spec says a response is. The
invariant is established by every step from any state, so every step keeps it. -/
def Obligations.EveryStepGivesWellFormedResponse : Prop :=
  ∀ s : State, ∃ t : State, step s = .next t ∧ ResponseWellFormed t

/-- A step writes the response ports only: the request ports are the host's and the configuration is no register. -/
def Obligations.RequestPortsAndConfigKept : Prop :=
  ∀ s t : State, step s = .next t →
    t.cmd = s.cmd ∧ t.a = s.a ∧ t.b = s.b ∧ t.config = s.config ∧ t.draws = s.draws + 1

/-- R20: two NUMCOREs with the same request on their ports (and the same build-time parameter) respond alike, whatever
they answered before. Only MF.ADD, MF.SUB, MF.MUL and MF.DIV may differ, and only between NaNs (R198). -/
def Obligations.ResponseDependsOnRequestAlone : Prop :=
  ∀ s₁ s₂ : State, s₁.cmd = s₂.cmd → s₁.a = s₂.a → s₁.b = s₂.b → s₁.config = s₂.config →
    ∃ t₁ t₂ : State, step s₁ = .next t₁ ∧ step s₂ = .next t₂ ∧
      SameResponse (s₁.cmd ∈ nanDrawers.map encode) t₁ t₂

/-- A request after a faulting request is answered as if the fault had not happened. -/
def Obligations.FaultLeavesNoTrace : Prop :=
  ∀ (s t : State) (cmd : Byte) (a b : Word), step s = .next t → t.err = 1#1 →
    ∃ u v : State, step (t.present cmd a b) = .next u ∧ step (s.present cmd a b) = .next v ∧
      SameResponse (cmd ∈ nanDrawers.map encode) u v

/-- A port the operation does not read is ignored entirely. -/
def Obligations.UnreadPortsIgnored : Prop :=
  ∀ (i : Instr) (s : State) (a' b' : Word),
    (i.signature.a ≠ none → a' = s.a) → (i.signature.b ≠ none → b' = s.b) →
    ∃ t u : State, exec i s = .next t ∧ exec i (s.present s.cmd a' b') = .next u ∧
      SameResponse (i ∈ nanDrawers) t u

/-- R252 and R253: which cause each request reports, in the order of the checks. -/
def Obligations.FaultCausesAndPriority : Prop :=
  ∀ s : State, ∃ t : State, step s = .next t ∧
    ((ReservedByte s.cmd ∧ FaultedFrom s 1#3 t) ∨
     ∃ i : Instr, ¬ ReservedByte s.cmd ∧ decode s.cmd = .ok i ∧
      (if requestWellFormed i s.a s.b = false then FaultedFrom s 2#3 t
       else if i = .fxDiv ∧ s.b.toNat % 2 ^ 16 = 0 then FaultedFrom s 3#3 t
       else if i = .fxFromfloat ∧ isFinite s.a = false then FaultedFrom s 4#3 t
       else match torawFormat i with
         | some f =>
           if isZero s.a = false ∧ ¬ (bias f.E ≤ ex s.a ∧ ex s.a ≤ bias f.E + 2 ^ f.E - 1) then FaultedFrom s 5#3 t
           else t.err = 0#1 ∧ t.cause = 0#3
         | none => t.err = 0#1 ∧ t.cause = 0#3))

/-- The operations that can never fault on a legal command complete in every state. -/
def Obligations.NeverFaultingOperations : Prop :=
  ∀ i ∈ [Instr.fxZero, .mfZeroF24, .mfZeroF20, .mfZeroF16, .mfFromf32F24, .mfFromf32F20, .mfFromf32F16,
      .mfNegF24, .mfNegF20, .mfNegF16, .mfAddF24, .mfAddF20, .mfAddF16, .mfSubF24, .mfSubF20, .mfSubF16,
      .mfMulF24, .mfMulF20, .mfMulF16, .mfDivF24, .mfDivF20, .mfDivF16, .mfLtF24, .mfLtF20, .mfLtF16,
      .mfLeF24, .mfLeF20, .mfLeF16, .mfGtF24, .mfGtF20, .mfGtF16, .mfGeF24, .mfGeF20, .mfGeF16,
      .mfEqF24, .mfEqF20, .mfEqF16, .mfNeF24, .mfNeF20, .mfNeF16],
    ∀ s : State, ∃ y : Word, AnswersOk i s y

/-! ### The FX family -/

/-- R101: the word 0, whatever is on `a` and `b`, and it is the identity of FX.ADD on either side. -/
def Obligations.FxZeroAnswersZero : Prop :=
  FxEncoding 0x00#8 .fxZero ∧ (∀ s : State, AnswersOk .fxZero s 0#32) ∧
  ∀ (s : State) (A : Fx), Gives .fxAdd s (A.setWidth 32) 0#32 (A.setWidth 32) ∧
    Gives .fxAdd s 0#32 (A.setWidth 32) (A.setWidth 32)

/-- R102: every 16-bit word comes back unchanged. -/
def Obligations.FxFromrawIsIdentity : Prop :=
  FxUnary 0x01#8 .fxFromraw fun A => A.setWidth 32

/-- R103: the low 12 bits of intPart above the low 4 bits of fracPart. -/
def Obligations.FxFromintPacksFields : Prop :=
  FxBinary 0x02#8 .fxFromint fun A B => .ok ((A.extractLsb' 0 12 ++ B.extractLsb' 0 4).setWidth 32)

/-- R104: a finite operand times 16 goes to the nearest integer, a tie by `FX_ROUND_TIES`, and that integer to 16 bits;
a non-finite operand faults. Port `b` and the upper bits of `a` are never OPERAND_RANGE. -/
def Obligations.FxFromfloatRoundsToNearest : Prop :=
  FxEncoding 0x03#8 .fxFromfloat ∧ ∀ s : State,
    (isFinite s.a = true → ∃ n : ℤ, |realVal s.a * 16 - n| ≤ 1 / 2 ∧
      (|realVal s.a * 16 - n| = 1 / 2 →
        match s.config.fxRoundTies with
        | .even => Even n
        | .away => |realVal s.a * 16| < |(n : ℚ)|) ∧
      AnswersOk .fxFromfloat s ((BitVec.ofInt 16 n).setWidth 32)) ∧
    (isFinite s.a = false → AnswersFault .fxFromfloat s 4#3)

/-- A finite magnitude from 2^35 on answers 0, under both tie rules. -/
def Obligations.FxFromfloatHugeIsZero : Prop :=
  ∀ s : State, isFinite s.a = true → 2 ^ 35 ≤ |realVal s.a| → AnswersOk .fxFromfloat s 0#32

/-- Every 12.4 value that a binary32 spells comes back as its word, under both tie rules. -/
def Obligations.FxFromfloatOfExactValue : Prop :=
  ∀ (s : State) (A : Fx), isFinite s.a = true → realVal s.a = (A.toInt : ℚ) / 16 →
    AnswersOk .fxFromfloat s (A.setWidth 32)

/-- R105: the floor of the value, as a 16-bit word. -/
def Obligations.FxIntIsFloor : Prop :=
  FxUnary 0x04#8 .fxInt fun A => (BitVec.ofInt 16 (Int.fdiv A.toInt 16)).setWidth 32

/-- R106: the low four bits, whatever the sign. -/
def Obligations.FxFracIsLowFourBits : Prop :=
  FxUnary 0x05#8 .fxFrac fun A => BitVec.ofNat 32 (A.toNat % 16)

/-- R107: the fraction bits masked off, and that this is the largest multiple of 1.0 not above the operand. -/
def Obligations.FxFloorIsLargestBelow : Prop :=
  (FxUnary 0x06#8 .fxFloor fun A => (A &&& 0xFFF0#16).setWidth 32) ∧
  ∀ A : Fx, 16 ∣ (A &&& 0xFFF0#16).toInt ∧ (A &&& 0xFFF0#16).toInt ≤ A.toInt ∧
    A.toInt < (A &&& 0xFFF0#16).toInt + 16

/-- R108: add 15 with a 16-bit wrap, then floor: the smallest multiple of 1.0 not below the operand, but for the 15
words above 2047.0, which wrap to -2048.0. -/
def Obligations.FxCeilIsSmallestAbove : Prop :=
  (FxUnary 0x07#8 .fxCeil fun A => ((A + 15#16) &&& 0xFFF0#16).setWidth 32) ∧
  ∀ A : Fx,
    if A.toInt ≤ 0x7FF0 then
      16 ∣ ((A + 15#16) &&& 0xFFF0#16).toInt ∧ A.toInt ≤ ((A + 15#16) &&& 0xFFF0#16).toInt ∧
        ((A + 15#16) &&& 0xFFF0#16).toInt < A.toInt + 16
    else (A + 15#16) &&& 0xFFF0#16 = 0x8000#16

/-- R109, R110: 16-bit addition and subtraction that wrap. -/
def Obligations.FxAddSubWrap : Prop :=
  (FxBinary 0x08#8 .fxAdd fun A B => .ok ((A + B).setWidth 32)) ∧
  (FxBinary 0x09#8 .fxSub fun A B => .ok ((A - B).setWidth 32))

/-- R111: the exact signed product over 16, truncated toward zero, to 16 bits; it commutes, and 1.0 is its unit. -/
def Obligations.FxMulTruncates : Prop :=
  (FxBinary 0x0A#8 .fxMul fun A B => .ok ((BitVec.ofInt 16 ((A.toInt * B.toInt).tdiv 16)).setWidth 32)) ∧
  (∀ (s : State) (A B : Fx) (y : Word), Gives .fxMul s (A.setWidth 32) (B.setWidth 32) y →
    Gives .fxMul s (B.setWidth 32) (A.setWidth 32) y) ∧
  (∀ (s : State) (A : Fx), Gives .fxMul s (A.setWidth 32) 0x10#32 (A.setWidth 32))

/-- R112: DIV_BY_ZERO for the divisor 0 whatever the dividend, else the exact quotient of the dividend times 16,
truncated toward zero, to 16 bits; division by 1.0 is the identity. -/
def Obligations.FxDivTruncates : Prop :=
  (FxBinary 0x0B#8 .fxDiv fun A B =>
    if B = 0#16 then .fault .divByZero else .ok ((BitVec.ofInt 16 ((A.toInt * 16).tdiv B.toInt)).setWidth 32)) ∧
  (∀ (s : State) (A : Fx), Gives .fxDiv s (A.setWidth 32) 0x10#32 (A.setWidth 32))

/-- R113 to R118: the signed order of the raw words, in bit 0. -/
def Obligations.FxComparisonsSigned : Prop :=
  (FxBinary 0x10#8 .fxLt fun A B => .ok (bit (A.slt B))) ∧
  (FxBinary 0x11#8 .fxLe fun A B => .ok (bit (A.sle B))) ∧
  (FxBinary 0x12#8 .fxGt fun A B => .ok (bit (B.slt A))) ∧
  (FxBinary 0x13#8 .fxGe fun A B => .ok (bit (B.sle A))) ∧
  (FxBinary 0x14#8 .fxEq fun A B => .ok (bit (decide (A = B)))) ∧
  (FxBinary 0x15#8 .fxNe fun A B => .ok (bit (decide (A ≠ B))))

/-- R120: FX.INT and FX.FRAC take apart what FX.FROMINT put together; outside 12 bits the integer part is the
sign-extension of its low 12 bits. -/
def Obligations.FxConstructionRoundTrip : Prop :=
  (∀ (s : State) (i : ℤ) (f : Nat), -2048 ≤ i → i ≤ 2047 → f ≤ 15 → ∃ w : Word, ∀ b : Word,
    Gives .fxFromint s ((BitVec.ofInt 16 i).setWidth 32) (BitVec.ofNat 32 f) w ∧
    Gives .fxInt s w b ((BitVec.ofInt 16 i).setWidth 32) ∧ Gives .fxFrac s w b (BitVec.ofNat 32 f)) ∧
  (∀ (s : State) (A : Fx) (f : Nat), f ≤ 15 → ∃ w : Word, ∀ b : Word,
    Gives .fxFromint s (A.setWidth 32) (BitVec.ofNat 32 f) w ∧
    Gives .fxInt s w b (((A.extractLsb' 0 12).signExtend 16).setWidth 32))

/-- R121: a word is its integer part and its fraction, as fields and as a value, and FX.FLOOR is FX.FROMINT of its
integer part. -/
def Obligations.FxDecomposition : Prop :=
  ∀ (s : State) (A : Fx) (b : Word), ∃ I F : BitVec 16, ∃ L : Word,
    Gives .fxInt s (A.setWidth 32) b (I.setWidth 32) ∧ Gives .fxFrac s (A.setWidth 32) b (F.setWidth 32) ∧
    A = (I.extractLsb' 0 12).setWidth 16 <<< 4 ||| (F.extractLsb' 0 4).setWidth 16 ∧
    A.toInt = 16 * I.toInt + F.toNat ∧
    Gives .fxFloor s (A.setWidth 32) b L ∧ Gives .fxFromint s (I.setWidth 32) 0#32 L

/-- R122: FX.FLOOR is not above the operand; the operand is not above FX.CEIL unless it is one of the 15 words above
2047.0; both are the operand exactly where the fraction is 0. -/
def Obligations.FxFloorCeilLaw : Prop :=
  ∀ (s : State) (A : Fx) (b : Word), ∃ L C : Fx, ∃ F : Word,
    Gives .fxFloor s (A.setWidth 32) b (L.setWidth 32) ∧ Gives .fxCeil s (A.setWidth 32) b (C.setWidth 32) ∧
    Gives .fxFrac s (A.setWidth 32) b F ∧
    L.toInt ≤ A.toInt ∧ (A.toInt ≤ C.toInt ↔ A.toInt ≤ 0x7FF0) ∧ (L = A ∧ C = A ↔ F = 0#32)

/-- R123: FX.LT is a strict total order and the other five comparisons are what it makes of them. -/
def Obligations.FxOrderIsTotal : Prop :=
  (∀ (s : State) (A B : Fx), ∃ l e g : Bool,
    Gives .fxLt s (A.setWidth 32) (B.setWidth 32) (bit l) ∧ Gives .fxEq s (A.setWidth 32) (B.setWidth 32) (bit e) ∧
    Gives .fxGt s (A.setWidth 32) (B.setWidth 32) (bit g) ∧
    ((l = true ∧ e = false ∧ g = false) ∨ (l = false ∧ e = true ∧ g = false) ∨ (l = false ∧ e = false ∧ g = true)) ∧
    (e = true ↔ A = B) ∧ (l = true ↔ A.toInt < B.toInt) ∧
    Gives .fxLt s (B.setWidth 32) (A.setWidth 32) (bit g) ∧
    Gives .fxLe s (A.setWidth 32) (B.setWidth 32) (bit (l || e)) ∧
    Gives .fxGe s (A.setWidth 32) (B.setWidth 32) (bit (g || e)) ∧
    Gives .fxNe s (A.setWidth 32) (B.setWidth 32) (bit (!e))) ∧
  (∀ (s : State) (A B C : Fx), Gives .fxLt s (A.setWidth 32) (B.setWidth 32) 1#32 →
    Gives .fxLt s (B.setWidth 32) (C.setWidth 32) 1#32 → Gives .fxLt s (A.setWidth 32) (C.setWidth 32) 1#32)

/-! ### The minifloat decoder and encoder -/

/-- R151: the fields of the decoded pattern, and OPERAND_RANGE for a pattern wider than the format. -/
def Obligations.MfFromrawAssemblesFields : Prop :=
  MfAll 0x21#8 .mfFromrawF24 .mfFromrawF20 .mfFromrawF16 (fun _ => True) ∧
  ∀ (f : Format) (s : State),
    (s.a.toNat < 2 ^ f.W → ∃ y : F32, AnswersOk (fromrawOp f) s y ∧
      sgn y = decide (s.a.toNat / 2 ^ (f.M + f.E) = 1) ∧
      (if s.a.toNat % 2 ^ (f.M + f.E) ≠ 0 then
        ex y = s.a.toNat / 2 ^ f.M % 2 ^ f.E + (128 - 2 ^ (f.E - 1)) ∧
          fr y = s.a.toNat % 2 ^ f.M * 2 ^ (23 - f.M)
      else ex y = 0 ∧ fr y = 0)) ∧
    (2 ^ f.W ≤ s.a.toNat → AnswersFault (fromrawOp f) s 2#3)

/-- R152: the value of a pattern that is no zero. -/
def Obligations.MfFromrawValue : Prop :=
  ∀ (f : Format) (s : State), s.a.toNat < 2 ^ f.W → s.a.toNat % 2 ^ (f.M + f.E) ≠ 0 →
    ∃ y : F32, AnswersOk (fromrawOp f) s y ∧
      realVal y = (-1) ^ (s.a.toNat / 2 ^ (f.M + f.E)) * (1 + ((s.a.toNat % 2 ^ f.M : ℕ) : ℚ) / 2 ^ f.M) *
        2 ^ (((s.a.toNat / 2 ^ f.M % 2 ^ f.E : ℕ) : ℤ) - (2 ^ (f.E - 1) - 1))

/-- R156: what the decoder gives is a signed zero or a normal number in the format's window with the low mantissa bits
zero. -/
def Obligations.MfFromrawImage : Prop :=
  ∀ (f : Format) (s : State), s.a.toNat < 2 ^ f.W → ∃ y : F32, AnswersOk (fromrawOp f) s y ∧
    (isZero y = true ∨ (bias f.E ≤ ex y ∧ ex y ≤ bias f.E + 2 ^ f.E - 1 ∧ fr y % 2 ^ (23 - f.M) = 0)) ∧
    isFinite y = true ∧ (ex y = 0 → fr y = 0)

/-- R157: two patterns of one format never decode alike; patterns of different formats can, and 1.0 is one such
value. -/
def Obligations.MfFromrawInjective : Prop :=
  (∀ (f : Format) (s : State) (p q b y : Word), p.toNat < 2 ^ f.W → q.toNat < 2 ^ f.W →
    Gives (fromrawOp f) s p b y → Gives (fromrawOp f) s q b y → p = q) ∧
  (∀ (s : State) (b : Word), Gives .mfFromrawF24 s 0x3F0000#32 b 0x3F800000#32 ∧
    Gives .mfFromrawF20 s 0x3F000#32 b 0x3F800000#32 ∧ Gives .mfFromrawF16 s 0x3C00#32 b 0x3F800000#32)

/-- R171: every pattern comes back unchanged, in every format. -/
def Obligations.MfFromf32IsIdentity : Prop :=
  MfAll 0x22#8 .mfFromf32F24 .mfFromf32F20 .mfFromf32F16 fun i => ∀ s : State, AnswersOk i s s.a

/-- R172: the zero of the operand's sign; ENCODE_RANGE for an exponent the format cannot spell; else the three
fields. -/
def Obligations.MfTorawDerivesFields : Prop :=
  MfAll 0x23#8 .mfTorawF24 .mfTorawF20 .mfTorawF16 (fun _ => True) ∧
  ∀ (f : Format) (s : State),
    if isZero s.a = true then
      AnswersOk (torawOp f) s (BitVec.ofNat 32 ((sgn s.a).toNat * 2 ^ (f.M + f.E)))
    else if ex s.a < bias f.E ∨ bias f.E + 2 ^ f.E - 1 < ex s.a then AnswersFault (torawOp f) s 5#3
    else AnswersOk (torawOp f) s (BitVec.ofNat 32
      ((sgn s.a).toNat * 2 ^ (f.M + f.E) + (ex s.a - bias f.E) * 2 ^ f.M + fr s.a / 2 ^ (23 - f.M)))

/-- R173: decoding a pattern and encoding the result gives the pattern back, for every pattern of every format. -/
def Obligations.RoundTripPatternFirst : Prop :=
  ∀ (f : Format) (s : State) (p b : Word), p.toNat < 2 ^ f.W →
    ∃ y : F32, Gives (fromrawOp f) s p b y ∧ Gives (torawOp f) s y b p

/-- R174: encoding a float and decoding the result clears the low mantissa bits, or gives the zero of its sign where
the encoding collides with zero. -/
def Obligations.RoundTripFloatFirst : Prop :=
  ∀ (f : Format) (s : State) (x b p : Word), Gives (torawOp f) s x b p →
    ∃ y : F32, Gives (fromrawOp f) s p b y ∧ sgn y = sgn x ∧
      (if ex x = bias f.E ∧ fr x < 2 ^ (23 - f.M) then ex y = 0 ∧ fr y = 0
       else ex y = ex x ∧ fr y = fr x / 2 ^ (23 - f.M) * 2 ^ (23 - f.M))

/-- R175: the encoded pattern decodes to the representable value of largest magnitude that does not exceed the
operand's, with its sign. -/
def Obligations.TorawTruncates : Prop :=
  ∀ (f : Format) (s : State) (x b p : Word), Gives (torawOp f) s x b p →
    ¬ (ex x = bias f.E ∧ fr x < 2 ^ (23 - f.M)) →
    ∃ y : F32, Gives (fromrawOp f) s p b y ∧ sgn y = sgn x ∧ |realVal y| ≤ |realVal x| ∧
      ∀ (q : Word) (z : F32), q.toNat < 2 ^ f.W → Gives (fromrawOp f) s q b z →
        |realVal z| ≤ |realVal x| → |realVal z| ≤ |realVal y|

/-- R176: an operand in the lowest binade whose kept mantissa bits are zero encodes to the zero pattern of its sign,
without a fault; one binade lower faults. -/
def Obligations.TorawCollidesWithZero : Prop :=
  ∀ (f : Format) (s : State),
    (ex s.a = bias f.E → fr s.a < 2 ^ (23 - f.M) →
      AnswersOk (torawOp f) s (BitVec.ofNat 32 ((sgn s.a).toNat * 2 ^ (f.M + f.E)))) ∧
    (ex s.a = bias f.E - 1 → AnswersFault (torawOp f) s 5#3)

/-- R235: a widening chain never faults, decodes back to the same binary32, and its pattern is the sign copied, the
exponent re-biased and the mantissa shifted left. -/
def Obligations.WideningChainsExact : Prop :=
  ∀ (X Y : Format), (X = .f16 ∧ Y = .f24) ∨ (X = .f16 ∧ Y = .f20) ∨ (X = .f20 ∧ Y = .f24) →
    ∀ (s : State) (p b : Word), p.toNat < 2 ^ X.W →
      ∃ (y : F32) (q : Word), Gives (fromrawOp X) s p b y ∧ Gives (torawOp Y) s y b q ∧ Gives (fromrawOp Y) s q b y ∧
        q.toNat = p.toNat / 2 ^ (X.M + X.E) * 2 ^ (Y.M + Y.E) +
          (if p.toNat % 2 ^ (X.M + X.E) = 0 then 0
           else (p.toNat / 2 ^ X.M % 2 ^ X.E + bias X.E - bias Y.E) * 2 ^ Y.M + p.toNat % 2 ^ X.M * 2 ^ (Y.M - X.M))

/-- R236: float24 to float20 never faults and drops the low 4 bits of the pattern; to float16, a pattern faults unless
it is a zero or its exponent field is in 48..79, and then the low mantissa bits are dropped. -/
def Obligations.NarrowingChainsTruncate : Prop :=
  (∀ (s : State) (p b : Word), p.toNat < 2 ^ 24 →
    ∃ y : F32, Gives .mfFromrawF24 s p b y ∧ Gives .mfTorawF20 s y b (BitVec.ofNat 32 (p.toNat / 16))) ∧
  (∀ (X : Format), X = .f24 ∨ X = .f20 → ∀ (s : State) (p b : Word), p.toNat < 2 ^ X.W →
    ∃ y : F32, Gives (fromrawOp X) s p b y ∧
      (if p.toNat % 2 ^ (X.M + X.E) = 0 then
        Gives .mfTorawF16 s y b (BitVec.ofNat 32 (p.toNat / 2 ^ (X.M + X.E) * 2 ^ 15))
      else if 48 ≤ p.toNat / 2 ^ X.M % 2 ^ X.E ∧ p.toNat / 2 ^ X.M % 2 ^ X.E ≤ 79 then
        Gives .mfTorawF16 s y b (BitVec.ofNat 32 (p.toNat / 2 ^ (X.M + X.E) * 2 ^ 15 +
          (p.toNat / 2 ^ X.M % 2 ^ X.E - 48) * 2 ^ 10 + p.toNat % 2 ^ X.M / 2 ^ (X.M - 10)))
      else AnswersFault .mfTorawF16 (s.present (encode .mfTorawF16) y b) 5#3))

/-! ### Minifloat arithmetic and comparison -/

/-- R200: +0.0 in every format, and it is the additive identity. -/
def Obligations.MfZeroIsAdditiveIdentity : Prop :=
  (MfAll 0x20#8 .mfZeroF24 .mfZeroF20 .mfZeroF16 fun i => ∀ s : State, AnswersOk i s 0#32) ∧
  ∀ x : F32, isNan x = false →
    ∃ y : F32, f32Add x 0#32 = .ok y ∧ f32Add 0#32 x = .ok y ∧ f32Eq y x = true ∧
      (if x = 0x80000000#32 then y = 0#32 else y = x)

/-- R201: bit 31 inverted, for every pattern. -/
def Obligations.MfNegInvertsSign : Prop :=
  MfAll 0x24#8 .mfNegF24 .mfNegF20 .mfNegF16 fun i => ∀ s : State, AnswersOk i s (s.a ^^^ 0x80000000#32)

/-- R202, R203, R205: the sum, the difference and the quotient are the binary32 ones in every format. -/
def Obligations.MfAddSubDivAreBinary32 : Prop :=
  (MfAll 0x28#8 .mfAddF24 .mfAddF20 .mfAddF16 fun i => ∀ s : State, AnswersAs i s (f32Add s.a s.b)) ∧
  (MfAll 0x29#8 .mfSubF24 .mfSubF20 .mfSubF16 fun i => ∀ s : State, AnswersAs i s (f32Sub s.a s.b)) ∧
  (MfAll 0x2B#8 .mfDivF24 .mfDivF20 .mfDivF16 fun i => ∀ s : State, AnswersAs i s (f32Div s.a s.b))

/-- R204: a zero times anything that is no NaN is +0.0, on either side, infinities included; else the binary32
product. -/
def Obligations.MfMulForcesZero : Prop :=
  MfAll 0x2A#8 .mfMulF24 .mfMulF20 .mfMulF16 fun i => ∀ s : State,
    if (isZero s.a = true ∧ isNan s.b = false) ∨ (isZero s.b = true ∧ isNan s.a = false) then AnswersOk i s 0#32
    else AnswersAs i s (f32Mul s.a s.b)

/-- R192 with R191: the special cases of the sum in their order, and the exact sum correctly rounded. -/
def Obligations.BinaryAddRoundsCorrectly : Prop :=
  ∀ A B : F32,
    if isNan A = true ∨ isNan B = true then f32Add A B = .anyNan
    else if isInf A = true ∧ isInf B = true then f32Add A B = if sgn A = sgn B then .ok A else .anyNan
    else if isInf A = true then f32Add A B = .ok A
    else if isInf B = true then f32Add A B = .ok B
    else if isZero A = true ∧ isZero B = true then f32Add A B = .ok (if sgn A = sgn B then A else 0#32)
    else if realVal A + realVal B = 0 then f32Add A B = .ok 0#32
    else ∃ y : F32, f32Add A B = .ok y ∧ RoundsTo (realVal A + realVal B) y

/-- R193: negation, and subtraction as addition of the negation for operands that are no NaNs. -/
def Obligations.BinarySubAddsNegation : Prop :=
  (∀ A : F32, f32Neg A = A ^^^ 0x80000000#32 ∧ (isNan A = false → isInf A = false → realVal (f32Neg A) = -realVal A)) ∧
  (∀ A B : F32, if isNan A = true ∨ isNan B = true then f32Sub A B = .anyNan
    else f32Sub A B = f32Add A (f32Neg B)) ∧
  (∀ A : F32, isFinite A = true → f32Sub A A = .ok 0#32) ∧
  (∀ A : F32, isInf A = true → f32Sub A A = .anyNan) ∧
  f32Sub 0x00000000#32 0x00000000#32 = .ok 0x00000000#32 ∧ f32Sub 0x80000000#32 0x00000000#32 = .ok 0x80000000#32

/-- R194 with R191: the special cases of the product in their order, and the exact product correctly rounded. -/
def Obligations.BinaryMulRoundsCorrectly : Prop :=
  ∀ A B : F32,
    if isNan A = true ∨ isNan B = true then f32Mul A B = .anyNan
    else if (isInf A = true ∧ isZero B = true) ∨ (isZero A = true ∧ isInf B = true) then f32Mul A B = .anyNan
    else if isInf A = true ∨ isInf B = true then f32Mul A B = .ok (infOf (sgn A ^^ sgn B))
    else if isZero A = true ∨ isZero B = true then f32Mul A B = .ok (zeroOf (sgn A ^^ sgn B))
    else ∃ y : F32, f32Mul A B = .ok y ∧ RoundsTo (realVal A * realVal B) y

/-- R195 with R191: the special cases of the quotient in their order, and the exact quotient correctly rounded. -/
def Obligations.BinaryDivRoundsCorrectly : Prop :=
  ∀ A B : F32,
    if isNan A = true ∨ isNan B = true then f32Div A B = .anyNan
    else if (isInf A = true ∧ isInf B = true) ∨ (isZero A = true ∧ isZero B = true) then f32Div A B = .anyNan
    else if isInf A = true then f32Div A B = .ok (infOf (sgn A ^^ sgn B))
    else if isInf B = true then f32Div A B = .ok (zeroOf (sgn A ^^ sgn B))
    else if isZero B = true then f32Div A B = .ok (infOf (sgn A ^^ sgn B))
    else if isZero A = true then f32Div A B = .ok (zeroOf (sgn A ^^ sgn B))
    else ∃ y : F32, f32Div A B = .ok y ∧ RoundsTo (realVal A / realVal B) y

/-- R198: with a NaN operand, and in the invalid operations (the sum of two infinities of unlike signs, the difference of
two of like signs, infinity by infinity, zero by zero), `y` is what `nanOf` makes of the draw for this request; `nanOf`
gives nothing but NaNs and every NaN pattern. The form of the draw is the model's choice, and its value is free (log
entry 2). -/
def Obligations.NanResultsAreDrawn : Prop :=
  (∀ i ∈ nanDrawers, ∀ s : State, isNan s.a = true ∨ isNan s.b = true →
    AnswersOk i s (nanOf (Config.nanDraw s.draws (encode i) s.a s.b))) ∧
  (∀ i ∈ [Instr.mfAddF24, .mfAddF20, .mfAddF16], ∀ s : State,
    isInf s.a = true → isInf s.b = true → sgn s.a ≠ sgn s.b →
    AnswersOk i s (nanOf (Config.nanDraw s.draws (encode i) s.a s.b))) ∧
  (∀ i ∈ [Instr.mfSubF24, .mfSubF20, .mfSubF16], ∀ s : State,
    isInf s.a = true → isInf s.b = true → sgn s.a = sgn s.b →
    AnswersOk i s (nanOf (Config.nanDraw s.draws (encode i) s.a s.b))) ∧
  (∀ i ∈ [Instr.mfDivF24, .mfDivF20, .mfDivF16], ∀ s : State,
    (isInf s.a = true ∧ isInf s.b = true) ∨ (isZero s.a = true ∧ isZero s.b = true) →
    AnswersOk i s (nanOf (Config.nanDraw s.draws (encode i) s.a s.b))) ∧
  (∀ w : Word, isNan (nanOf w) = true) ∧ (∀ w : Word, isNan w = true → nanOf w = w)

/-- R196: the three predicates on the extended reals, false on NaNs. -/
def Obligations.BinaryComparisonPredicates : Prop :=
  ∀ A B : F32,
    (f32Eq A B = true ↔ isNan A = false ∧ isNan B = false ∧ extVal A = extVal B) ∧
    (f32Lt A B = true ↔ isNan A = false ∧ isNan B = false ∧ extVal A < extVal B) ∧
    (f32Le A B = true ↔ isNan A = false ∧ isNan B = false ∧ extVal A ≤ extVal B)

/-- R206 to R211: the Boolean of each comparison, in every format. -/
def Obligations.MfComparisonsAnswer : Prop :=
  (MfAll 0x30#8 .mfLtF24 .mfLtF20 .mfLtF16 fun i => ∀ s : State, AnswersOk i s (bit (f32Lt s.a s.b))) ∧
  (MfAll 0x31#8 .mfLeF24 .mfLeF20 .mfLeF16 fun i => ∀ s : State, AnswersOk i s (bit (f32Le s.a s.b))) ∧
  (MfAll 0x32#8 .mfGtF24 .mfGtF20 .mfGtF16 fun i => ∀ s : State, AnswersOk i s (bit (f32Lt s.b s.a))) ∧
  (MfAll 0x33#8 .mfGeF24 .mfGeF20 .mfGeF16 fun i => ∀ s : State, AnswersOk i s (bit (f32Le s.b s.a))) ∧
  (MfAll 0x34#8 .mfEqF24 .mfEqF20 .mfEqF16 fun i => ∀ s : State, AnswersOk i s (bit (f32Eq s.a s.b))) ∧
  (MfAll 0x35#8 .mfNeF24 .mfNeF20 .mfNeF16 fun i => ∀ s : State, AnswersOk i s (bit (!f32Eq s.a s.b)))

/-- R214: with a NaN none of less, equal and greater holds; on the rest exactly one does, and less-or-equal is
transitive and total. -/
def Obligations.MfOrderOnNonNan : Prop :=
  (∀ A B : F32, isNan A = true ∨ isNan B = true →
    f32Lt A B = false ∧ f32Eq A B = false ∧ f32Lt B A = false) ∧
  (∀ A B : F32, isNan A = false → isNan B = false →
    (f32Lt A B = true ∧ f32Eq A B = false ∧ f32Lt B A = false) ∨
    (f32Lt A B = false ∧ f32Eq A B = true ∧ f32Lt B A = false) ∨
    (f32Lt A B = false ∧ f32Eq A B = false ∧ f32Lt B A = true)) ∧
  (∀ A B : F32, isNan A = false → isNan B = false → f32Le A B = true ∨ f32Le B A = true) ∧
  (∀ A B C : F32, f32Le A B = true → f32Le B C = true → f32Le A C = true) ∧
  f32Eq 0x00000000#32 0x80000000#32 = true

/-- R213: with the same operands the three formats of an operation answer alike, up to the NaN draw of MF.ADD, MF.SUB,
MF.MUL and MF.DIV; MF.NEG draws nothing. -/
def Obligations.ArithmeticIsFormatIndependent : Prop :=
  ∀ g ∈ [(Instr.mfZeroF24, Instr.mfZeroF20, Instr.mfZeroF16), (.mfNegF24, .mfNegF20, .mfNegF16),
      (.mfAddF24, .mfAddF20, .mfAddF16), (.mfSubF24, .mfSubF20, .mfSubF16), (.mfMulF24, .mfMulF20, .mfMulF16),
      (.mfDivF24, .mfDivF20, .mfDivF16), (.mfLtF24, .mfLtF20, .mfLtF16), (.mfLeF24, .mfLeF20, .mfLeF16),
      (.mfGtF24, .mfGtF20, .mfGtF16), (.mfGeF24, .mfGeF20, .mfGeF16), (.mfEqF24, .mfEqF20, .mfEqF16),
      (.mfNeF24, .mfNeF20, .mfNeF16)],
    ∀ s : State, ∃ t u v : State, exec g.1 s = .next t ∧ exec g.2.1 s = .next u ∧ exec g.2.2 s = .next v ∧
      SameResponse (g.1 ∈ nanDrawers) t u ∧ SameResponse (g.1 ∈ nanDrawers) t v ∧ SameResponse (g.1 ∈ nanDrawers) u v

/-! ### Runs of requests -/

/-- R289, R251: a run of two lists of lines is the first list and then, only if that ended normally, the second; a run
that ends normally has one result for each line; a line whose request faults ends the run with its cause. -/
def Obligations.RunEndsAtFirstFault : Prop :=
  (∀ (r r' : HostRun) (ls ms : List Line), r.lines ls = .next r' → r.lines (ls ++ ms) = r'.lines ms) ∧
  (∀ (r : HostRun) (c : Fault) (ls ms : List Line), r.lines ls = .fault c → r.lines (ls ++ ms) = .fault c) ∧
  (∀ (r r' : HostRun) (ls : List Line), r.lines ls = .next r' → r'.results.length = r.results.length + ls.length) ∧
  (∀ (r : HostRun) (l : Line) (a b : Word) (c : Fault) (t : State), sourceValue r.temps l.a = .ok a →
    sourceValue r.temps l.b = .ok b → step (r.machine.present l.cmd a b) = .next t →
    FaultedFrom (r.machine.present l.cmd a b) c.code t → r.line l = .fault c) ∧
  (∀ (r : HostRun) (l : Line) (a b : Word) (t : State), sourceValue r.temps l.a = .ok a →
    sourceValue r.temps l.b = .ok b → step (r.machine.present l.cmd a b) = .next t → t.err = 0#1 →
    r.line l = .next { machine := t, temps := (l.dest, t.y) :: r.temps, results := r.results ++ [t.y] })

/-- A run of lines that read no unset temporary and carry no reserved byte, whatever their literals, ends normally or in
a fault of its operands, never in a refusal; well-formed lines are such lines. -/
def Obligations.WellFormedRunIsNeverRefused : Prop :=
  (∀ (r : HostRun) (ls : List Line), linesIssuable (r.temps.map Prod.fst) ls = true →
    (∃ r', r.lines ls = .next r') ∨ (∃ c, c ≠ .illegalOp ∧ r.lines ls = .fault c)) ∧
  (∀ (written : List Nat) (ls : List Line), linesWellFormed written ls = true → linesIssuable written ls = true)

/-- R82: each pseudo-instruction is one request: FX.FROMINT with the fraction 0, whether the destination was set before
or not, or the compound form's plain operation with the destination, which must be set, as its left operand. -/
def Obligations.PseudoInstructionsExpand : Prop :=
  ∀ (r : HostRun) (t : Nat) (src : Source) (v : Word), sourceValue r.temps src = .ok v →
    r.line (expandPseudo (.fromint t src)) = r.line ⟨t, 0x02#8, .bits v, .bits 0#32⟩ ∧
    ∀ w : Word, sourceValue r.temps (.temp t) = .ok w →
    r.line (expandPseudo (.adda t src)) = r.line ⟨t, 0x08#8, .bits w, .bits v⟩ ∧
    r.line (expandPseudo (.suba t src)) = r.line ⟨t, 0x09#8, .bits w, .bits v⟩ ∧
    r.line (expandPseudo (.mula t src)) = r.line ⟨t, 0x0A#8, .bits w, .bits v⟩ ∧
    r.line (expandPseudo (.diva t src)) = r.line ⟨t, 0x0B#8, .bits w, .bits v⟩
end

