-- ==== Sys2Proof/Laws/Binary32.lean ====
section
/-! SUPPORT. The fields of binary32 patterns, the rounding of a quotient of naturals, and the packing of a magnitude. -/

namespace Sys2Proof.Machine

/-! ### Fields -/

theorem ex_eq (f : F32) : ex f = f.toNat / 2 ^ 23 % 2 ^ 8 := by
  simp [ex, BitVec.extractLsb'_toNat, Nat.shiftRight_eq_div_pow]

theorem fr_eq (f : F32) : fr f = f.toNat % 2 ^ 23 := by
  simp [fr, BitVec.extractLsb'_toNat]

theorem ex_lt (f : F32) : ex f < 256 := by
  rw [ex_eq]; exact Nat.mod_lt _ (by norm_num)

theorem fr_lt (f : F32) : fr f < 2 ^ 23 := by
  rw [fr_eq]; exact Nat.mod_lt _ (by norm_num)

theorem sgn_eq (f : F32) : sgn f = decide (2 ^ 31 ≤ f.toNat) := by
  have h := f.isLt
  simp only [sgn, BitVec.getLsbD, Nat.testBit, Nat.shiftRight_eq_div_pow, Nat.one_and_eq_mod_two]
  rcases Nat.lt_or_ge f.toNat (2 ^ 31) with h1 | h1
  · rw [Nat.div_eq_of_lt h1]
    simp [show ¬ (2147483648 ≤ f.toNat) by omega]
  · have : f.toNat / 2 ^ 31 = 1 := by omega
    rw [this]
    simp [show 2147483648 ≤ f.toNat by omega]

/-- A pattern is its three fields. -/
theorem toNat_eq_fields (f : F32) : f.toNat = (sgn f).toNat * 2 ^ 31 + ex f * 2 ^ 23 + fr f := by
  have h := f.isLt
  rw [sgn_eq, ex_eq, fr_eq]
  by_cases h1 : 2 ^ 31 ≤ f.toNat
  · simp only [h1, decide_true, Bool.toNat_true]; omega
  · simp only [h1, decide_false, Bool.toNat_false]; omega

/-- Patterns with the same three fields are the same. -/
theorem eq_of_fields {f g : F32} (hs : sgn f = sgn g) (he : ex f = ex g) (hf : fr f = fr g) : f = g := by
  apply BitVec.eq_of_toNat_eq
  rw [toNat_eq_fields f, toNat_eq_fields g, hs, he, hf]

theorem toNat_assemble (s : Bool) (e : BitVec 8) (m : BitVec 23) :
    (assemble s e m).toNat = s.toNat * 2 ^ 31 + e.toNat * 2 ^ 23 + m.toNat := by
  have he := e.isLt
  have hm := m.isLt
  have h1 : (BitVec.ofBool s ++ e).toNat = s.toNat * 2 ^ 8 + e.toNat := by
    rw [BitVec.toNat_append, ← Nat.shiftLeft_add_eq_or_of_lt he, Nat.shiftLeft_eq, BitVec.toNat_ofBool]
  rw [assemble, BitVec.toNat_append, ← Nat.shiftLeft_add_eq_or_of_lt hm, Nat.shiftLeft_eq, h1]
  ring

/-- A pattern whose number is known has the fields the number spells. -/
theorem fields_of_toNat {f : F32} {s : Bool} {e m : Nat} (he : e < 256) (hm : m < 2 ^ 23)
    (h : f.toNat = s.toNat * 2 ^ 31 + e * 2 ^ 23 + m) : sgn f = s ∧ ex f = e ∧ fr f = m := by
  rw [sgn_eq, ex_eq, fr_eq, h]
  cases s <;> simp <;> omega

@[simp] theorem sgn_assemble (s : Bool) (e : BitVec 8) (m : BitVec 23) : sgn (assemble s e m) = s :=
  (fields_of_toNat e.isLt m.isLt (toNat_assemble s e m)).1

@[simp] theorem ex_assemble (s : Bool) (e : BitVec 8) (m : BitVec 23) : ex (assemble s e m) = e.toNat :=
  (fields_of_toNat e.isLt m.isLt (toNat_assemble s e m)).2.1

@[simp] theorem fr_assemble (s : Bool) (e : BitVec 8) (m : BitVec 23) : fr (assemble s e m) = m.toNat :=
  (fields_of_toNat e.isLt m.isLt (toNat_assemble s e m)).2.2

/-- A zero has the fields 0 and 0. -/
theorem isZero_iff (f : F32) : isZero f = true ↔ ex f = 0 ∧ fr f = 0 := by
  have h := f.isLt
  simp only [isZero, beq_iff_eq, ← BitVec.toNat_inj, BitVec.extractLsb'_toNat, Nat.shiftRight_zero]
  rw [ex_eq, fr_eq]
  simp only [BitVec.toNat_ofNat]
  omega

theorem isNan_iff (f : F32) : isNan f = true ↔ ex f = 255 ∧ fr f ≠ 0 := by simp [isNan]

theorem isInf_iff (f : F32) : isInf f = true ↔ ex f = 255 ∧ fr f = 0 := by simp [isInf]

theorem isFinite_iff (f : F32) : isFinite f = true ↔ ex f ≠ 255 := by simp [isFinite]

/-- Negation turns the sign over and leaves the other two fields. -/
theorem fields_f32Neg (f : F32) : sgn (f32Neg f) = !sgn f ∧ ex (f32Neg f) = ex f ∧ fr (f32Neg f) = fr f := by
  have hlow : (f32Neg f).toNat % 2 ^ 31 = f.toNat % 2 ^ 31 := by
    have : (f32Neg f).extractLsb' 0 31 = f.extractLsb' 0 31 := by
      ext i hi
      have hb : (0x80000000#32).getLsbD i = false := by interval_cases i <;> decide
      simp [f32Neg, hb]
    simpa [BitVec.extractLsb'_toNat] using congrArg BitVec.toNat this
  refine ⟨by simp [sgn, f32Neg], ?_, ?_⟩
  · rw [ex_eq, ex_eq]; omega
  · rw [fr_eq, fr_eq]; omega

/-! ### Values -/

/-- The value in units of 2^-149 is 0 exactly for the zeros. -/
theorem magUnits_eq_zero_iff (f : F32) : magUnits f = 0 ↔ isZero f = true := by
  rw [isZero_iff, magUnits]
  split
  · simp_all
  · simp_all

/-- A finite magnitude is below 2^277 units, that is below 2^128. -/
theorem magUnits_lt (f : F32) (h : isFinite f = true) : magUnits f < 2 ^ 128 * 2 ^ 149 := by
  have h1 := fr_lt f
  have h2 := ex_lt f
  have h3 := (isFinite_iff f).1 h
  rw [magUnits]
  split
  · calc fr f < 2 ^ 23 := h1
      _ ≤ _ := by norm_num
  · have h4 : ex f - 1 ≤ 253 := by omega
    calc (2 ^ 23 + fr f) * 2 ^ (ex f - 1) < 2 ^ 24 * 2 ^ (ex f - 1) :=
          Nat.mul_lt_mul_of_pos_right (by omega) (by positivity)
      _ ≤ 2 ^ 24 * 2 ^ 253 := Nat.mul_le_mul_left _ (Nat.pow_le_pow_right (by norm_num) h4)
      _ = _ := by rw [← pow_add, ← pow_add]

/-! ### Rounding -/

/-- The rounded quotient is one of the two integers around the quotient, the nearer one, and the even one (or the larger
one) where they are equally near. -/
theorem roundQuotient_spec (ties : RoundTies) (num den : Nat) (h : 0 < den) :
    2 * num ≤ 2 * (roundQuotient ties num den * den) + den ∧
    2 * (roundQuotient ties num den * den) ≤ 2 * num + den ∧
    (2 * (num % den) = den →
      match ties with
      | .even => roundQuotient ties num den % 2 = 0
      | .away => roundQuotient ties num den = num / den + 1) := by
  have hdm : num / den * den + num % den = num := by
    rw [Nat.mul_comm]; exact Nat.div_add_mod num den
  have hlt := Nat.mod_lt num h
  have hs : (num / den + 1) * den = num / den * den + den := by ring
  generalize hk : num / den = k at *
  generalize hr : num % den = r at *
  generalize hp : k * den = p at *
  simp only [roundQuotient, hk, hr]
  by_cases h1 : 2 * r < den
  · simp only [h1, if_true, hp]
    exact ⟨by omega, by omega, fun h2 => by omega⟩
  · by_cases h2 : den < 2 * r
    · simp only [h1, if_false, h2, if_true, hs]
      exact ⟨by omega, by omega, fun h3 => by omega⟩
    · simp only [h1, if_false, h2]
      cases ties with
      | away => exact ⟨by simp only [hs]; omega, by simp only [hs]; omega, fun _ => rfl⟩
      | even =>
        by_cases h3 : k % 2 = 0
        · simp only [h3, if_true, hp]
          exact ⟨by omega, by omega, fun _ => trivial⟩
        · simp only [h3, if_false, hs]
          exact ⟨by omega, by omega, fun _ => by omega⟩

/-- Below the overflow, packing keeps the sign, and the pattern's magnitude is `n * 2^sh` units. -/
theorem packF32_fields (s : Bool) (n sh : Nat) (hn : n ≤ 2 ^ 24) (hsh : sh = 0 ∨ 2 ^ 23 ≤ n)
    (hlt : n * 2 ^ sh < 2 ^ 128 * 2 ^ 149) :
    sgn (packF32 s n sh) = s ∧ isFinite (packF32 s n sh) = true ∧ magUnits (packF32 s n sh) = n * 2 ^ sh ∧
      fr (packF32 s n sh) % 2 = n % 2 := by
  have hsh' : sh ≤ 253 ∨ sh = 254 ∧ n < 2 ^ 23 := by
    by_contra hc
    have h1 : 254 ≤ sh := by omega
    have h2 : 2 ^ 23 ≤ n := by omega
    have : 2 ^ 23 * 2 ^ 254 ≤ n * 2 ^ sh := Nat.mul_le_mul h2 (Nat.pow_le_pow_right (by norm_num) h1)
    have h3 : (2 : Nat) ^ 23 * 2 ^ 254 = 2 ^ 128 * 2 ^ 149 := by rw [← pow_add, ← pow_add]
    omega
  have hsh2 : sh ≤ 253 := by omega
  have hn2 : sh = 253 → n < 2 ^ 24 := by
    intro h1
    subst h1
    have h3 : (2 : Nat) ^ 24 * 2 ^ 253 = 2 ^ 128 * 2 ^ 149 := by rw [← pow_add, ← pow_add]
    by_contra hc
    have : 2 ^ 24 * 2 ^ 253 ≤ n * 2 ^ 253 := Nat.mul_le_mul_right _ (by omega)
    omega
  have hnum : (packF32 s n sh).toNat = s.toNat * 2 ^ 31 + (sh * 2 ^ 23 + n) := by
    have hb : sh * 2 ^ 23 + n < 2 ^ 31 := by omega
    rw [packF32, if_neg (by omega), BitVec.toNat_append, ← Nat.shiftLeft_add_eq_or_of_lt (BitVec.isLt _),
      Nat.shiftLeft_eq, BitVec.toNat_ofBool, BitVec.toNat_ofNat, Nat.mod_eq_of_lt hb]
  rcases Nat.lt_or_ge n (2 ^ 23) with h1 | h1
  · have h0 : sh = 0 := by omega
    subst h0
    obtain ⟨hs, he, hf⟩ := fields_of_toNat (f := packF32 s n 0) (s := s) (e := 0) (m := n) (by norm_num) h1 (by rw [hnum]; ring)
    refine ⟨hs, by simp [isFinite, he], by simp [magUnits, he, hf], by rw [hf]⟩
  · rcases Nat.lt_or_ge n (2 ^ 24) with h2 | h2
    · obtain ⟨hs, he, hf⟩ := fields_of_toNat (f := packF32 s n sh) (s := s) (e := sh + 1) (m := n - 2 ^ 23)
        (by omega) (by omega) (by rw [hnum]; omega)
      refine ⟨hs, by simp [isFinite, he]; omega, ?_, by rw [hf]; omega⟩
      rw [magUnits, he, hf, if_neg (by omega), Nat.add_sub_cancel, Nat.add_sub_cancel' h1]
    · have h3 : n = 2 ^ 24 := by omega
      obtain ⟨hs, he, hf⟩ := fields_of_toNat (f := packF32 s n sh) (s := s) (e := sh + 2) (m := 0)
        (by omega) (by omega) (by rw [hnum]; omega)
      refine ⟨hs, by simp [isFinite, he]; omega, ?_, by rw [hf]; omega⟩
      rw [magUnits, he, hf, if_neg (by omega), h3, show sh + 2 - 1 = sh + 1 by omega, pow_succ]
      ring

/-- From 2^128 on, packing gives the infinity of the sign. -/
theorem packF32_overflow (s : Bool) (n sh : Nat) (h : 2 ^ 128 * 2 ^ 149 ≤ n * 2 ^ sh) : packF32 s n sh = infOf s := by
  rw [packF32, if_pos h]

end Sys2Proof.Machine
end

