-- ==== Sys2Proof/Laws/State.lean ====
section
/-! SUPPORT. One lemma per field of State for each update of it. -/

namespace Sys2Proof.Machine

variable (s : State) (cmd : Byte) (a b y : Word) (c : Fault)

@[simp] theorem State.present_cmd : (s.present cmd a b).cmd = cmd := rfl
@[simp] theorem State.present_a : (s.present cmd a b).a = a := rfl
@[simp] theorem State.present_b : (s.present cmd a b).b = b := rfl
@[simp] theorem State.present_y : (s.present cmd a b).y = s.y := rfl
@[simp] theorem State.present_err : (s.present cmd a b).err = s.err := rfl
@[simp] theorem State.present_cause : (s.present cmd a b).cause = s.cause := rfl
@[simp] theorem State.present_config : (s.present cmd a b).config = s.config := rfl
@[simp] theorem State.present_draws : (s.present cmd a b).draws = s.draws := rfl

@[simp] theorem State.driveOk_cmd : (s.driveOk y).cmd = s.cmd := rfl
@[simp] theorem State.driveOk_a : (s.driveOk y).a = s.a := rfl
@[simp] theorem State.driveOk_b : (s.driveOk y).b = s.b := rfl
@[simp] theorem State.driveOk_y : (s.driveOk y).y = y := rfl
@[simp] theorem State.driveOk_err : (s.driveOk y).err = 0#1 := rfl
@[simp] theorem State.driveOk_cause : (s.driveOk y).cause = 0#3 := rfl
@[simp] theorem State.driveOk_config : (s.driveOk y).config = s.config := rfl
@[simp] theorem State.driveOk_draws : (s.driveOk y).draws = s.draws + 1 := rfl

@[simp] theorem State.driveFault_cmd : (s.driveFault cmd c).cmd = s.cmd := rfl
@[simp] theorem State.driveFault_a : (s.driveFault cmd c).a = s.a := rfl
@[simp] theorem State.driveFault_b : (s.driveFault cmd c).b = s.b := rfl
@[simp] theorem State.driveFault_y : (s.driveFault cmd c).y = Config.faultY s.draws cmd s.a s.b := rfl
@[simp] theorem State.driveFault_err : (s.driveFault cmd c).err = 1#1 := rfl
@[simp] theorem State.driveFault_cause : (s.driveFault cmd c).cause = c.code := rfl
@[simp] theorem State.driveFault_config : (s.driveFault cmd c).config = s.config := rfl
@[simp] theorem State.driveFault_draws : (s.driveFault cmd c).draws = s.draws + 1 := rfl

@[simp] theorem State.command_eq : s.command = s.cmd := rfl

/-- Presenting a request twice leaves the later one. -/
@[simp] theorem State.present_present (cmd' : Byte) (a' b' : Word) :
    (s.present cmd a b).present cmd' a' b' = s.present cmd' a' b' := rfl

/-- Presenting the request that is on the ports changes nothing. -/
@[simp] theorem State.present_self : s.present s.cmd s.a s.b = s := rfl

end Sys2Proof.Machine
end

