-- ==== Sys2Proof/Laws/Ops.lean ====
section
/-! SUPPORT. For each shared operation, one lemma that says everything it can do. -/

namespace Sys2Proof.Machine

/-- Driving a response gives a next state in each of its three forms. -/
theorem answer_cases (s : State) (cmd : Byte) (r : Response) :
    (∃ y, r = .ok y ∧ s.answer cmd r = .next (s.driveOk y)) ∨
    (r = .anyNan ∧ s.answer cmd r = .next (s.driveOk (nanOf (Config.nanDraw s.draws cmd s.a s.b)))) ∨
    (∃ c, r = .fault c ∧ s.answer cmd r = .next (s.driveFault cmd c)) := by
  cases r with
  | ok y => exact .inl ⟨y, rfl, rfl⟩
  | anyNan => exact .inr (.inl ⟨rfl, rfl⟩)
  | fault c => exact .inr (.inr ⟨c, rfl, rfl⟩)

@[simp] theorem answer_ok (s : State) (cmd : Byte) (y : Word) : s.answer cmd (.ok y) = .next (s.driveOk y) := rfl

@[simp] theorem answer_anyNan (s : State) (cmd : Byte) :
    s.answer cmd .anyNan = .next (s.driveOk (nanOf (Config.nanDraw s.draws cmd s.a s.b))) := rfl

@[simp] theorem answer_fault (s : State) (cmd : Byte) (c : Fault) :
    s.answer cmd (.fault c) = .next (s.driveFault cmd c) := rfl

/-- A step runs the decoded operation, or rejects the command. -/
theorem step_cases (s : State) :
    (∃ i, decode s.cmd = .ok i ∧ step s = exec i s) ∨
    (∃ e, decode s.cmd = .error e ∧ step s = s.answer s.cmd (.fault .illegalOp)) := by
  simp only [step, State.command_eq, State.rejectCommand]
  cases h : decode s.cmd with
  | ok i => exact .inl ⟨i, rfl, rfl⟩
  | error e => exact .inr ⟨e, rfl, rfl⟩

/-- A shift leaves nothing of a port exactly where the port fits below it. -/
theorem shiftRight_eq_zero_iff (Wt : Nat) (p : Word) : p >>> Wt = 0#32 ↔ p.toNat < 2 ^ Wt := by
  constructor
  · intro h
    have h' := congrArg BitVec.toNat h
    simp only [BitVec.toNat_ushiftRight, Nat.shiftRight_eq_div_pow, BitVec.toNat_ofNat] at h'
    exact (Nat.div_eq_zero_iff_lt (by positivity)).1 (by simpa using h')
  · intro h
    apply BitVec.eq_of_toNat_eq
    simp [BitVec.toNat_ushiftRight, Nat.shiftRight_eq_div_pow, Nat.div_eq_of_lt h]

/-- An operand is used where it is justified, and OPERAND_RANGE is raised elsewhere. -/
theorem withOperand_eq (Wt : Nat) (p : Word) (k : BitVec Wt → Response) :
    withOperand Wt p k = if p.toNat < 2 ^ Wt then k (p.setWidth Wt) else .fault .operandRange := by
  simp only [withOperand, shiftRight_eq_zero_iff]

/-- A zero-extended operand is justified and comes back. -/
@[simp] theorem withOperand_setWidth (Wt : Nat) (h : Wt ≤ 32) (A : BitVec Wt) (k : BitVec Wt → Response) :
    withOperand Wt (A.setWidth 32) k = k A := by
  have hlt : A.toNat < 2 ^ 32 := lt_of_lt_of_le A.isLt (Nat.pow_le_pow_right (by omega) h)
  have hA : (A.setWidth 32).toNat = A.toNat := by rw [BitVec.toNat_setWidth, Nat.mod_eq_of_lt hlt]
  have hs : (A.setWidth 32).setWidth Wt = A := by
    apply BitVec.eq_of_toNat_eq
    rw [BitVec.toNat_setWidth, hA, Nat.mod_eq_of_lt A.isLt]
  rw [withOperand_eq, hA, if_pos A.isLt, hs]

@[simp] theorem withFx1_setWidth (A : Fx) (k : Fx → Response) : withFx1 (A.setWidth 32) k = k A :=
  withOperand_setWidth 16 (by omega) A k

@[simp] theorem withFx2_setWidth (A B : Fx) (k : Fx → Fx → Response) :
    withFx2 (A.setWidth 32) (B.setWidth 32) k = k A B := by
  simp [withFx2, withOperand_setWidth 16]

/-- The model's truncating division is the library's. -/
theorem tdiv_eq (p q : Int) : tdiv p q = Int.tdiv p q := by
  unfold tdiv
  rcases p with p | p <;> rcases q with q | q
  · rcases p with _ | p <;> rcases q with _ | q <;> simp [Int.sign, Int.tdiv, Int.natAbs]
  · rcases p with _ | p <;> simp [Int.sign, Int.tdiv, Int.natAbs]
  · rcases q with _ | q <;> simp [Int.sign, Int.tdiv, Int.natAbs]
  · simp [Int.sign, Int.tdiv, Int.natAbs]

/-- A draw becomes a NaN, and a NaN stays as it was drawn. -/
theorem nanOf_of_isNan (w : Word) (h : isNan w = true) : nanOf w = w := by simp [nanOf, h]

/-- Every fault is the one its code names. -/
@[simp] theorem Fault.ofCode_code (c : Fault) : Fault.ofCode c.code = some c := by cases c <;> rfl

end Sys2Proof.Machine
end

