-- ==== Sys2Proof/Laws/Exec.lean ====
section
/-! SUPPORT. The meanings as ONE function of the request and the configuration (10_state.md R20): what an operation
answers does not depend on anything else in State. -/

namespace Sys2Proof.Machine

/-- The response to a request of this operation (10_state.md R20). -/
def responseOf (config : Config) (a b : Word) : Instr → Response
  | .fxZero => .ok 0x00000000#32
  | .fxFromraw => withFx1 a fun A => .ok (placeFx A)
  | .fxFromint => withFx2 a b fun A B => .ok (placeFx (fxFromInt A B))
  | .fxFromfloat => fxFromFloat config.fxRoundTies a
  | .fxInt => withFx1 a fun A => .ok (placeFx (fxIntPart A))
  | .fxFrac => withFx1 a fun A => .ok (placeFx (fxFracPart A))
  | .fxFloor => withFx1 a fun A => .ok (placeFx (fxFloor A))
  | .fxCeil => withFx1 a fun A => .ok (placeFx (fxCeil A))
  | .fxAdd => withFx2 a b fun A B => .ok (placeFx (fxAdd A B))
  | .fxSub => withFx2 a b fun A B => .ok (placeFx (fxSub A B))
  | .fxMul => withFx2 a b fun A B => .ok (placeFx (fxMul A B))
  | .fxDiv => withFx2 a b fun A B => fxDiv A B
  | .fxLt => withFx2 a b fun A B => .ok (placeBool (fxLt A B))
  | .fxLe => withFx2 a b fun A B => .ok (placeBool (fxLe A B))
  | .fxGt => withFx2 a b fun A B => .ok (placeBool (fxGt A B))
  | .fxGe => withFx2 a b fun A B => .ok (placeBool (fxGe A B))
  | .fxEq => withFx2 a b fun A B => .ok (placeBool (fxEq A B))
  | .fxNe => withFx2 a b fun A B => .ok (placeBool (fxNe A B))
  | .mfZeroF24 | .mfZeroF20 | .mfZeroF16 => .ok plusZero
  | .mfFromrawF24 => withOperand Format.f24.W a fun bits => .ok (fromRaw Format.f24.M Format.f24.E bits)
  | .mfFromrawF20 => withOperand Format.f20.W a fun bits => .ok (fromRaw Format.f20.M Format.f20.E bits)
  | .mfFromrawF16 => withOperand Format.f16.W a fun bits => .ok (fromRaw Format.f16.M Format.f16.E bits)
  | .mfFromf32F24 | .mfFromf32F20 | .mfFromf32F16 => .ok a
  | .mfTorawF24 => toRaw Format.f24.M Format.f24.E a
  | .mfTorawF20 => toRaw Format.f20.M Format.f20.E a
  | .mfTorawF16 => toRaw Format.f16.M Format.f16.E a
  | .mfNegF24 | .mfNegF20 | .mfNegF16 => .ok (f32Neg a)
  | .mfAddF24 | .mfAddF20 | .mfAddF16 => f32Add a b
  | .mfSubF24 | .mfSubF20 | .mfSubF16 => f32Sub a b
  | .mfMulF24 | .mfMulF20 | .mfMulF16 => mfMul a b
  | .mfDivF24 | .mfDivF20 | .mfDivF16 => f32Div a b
  | .mfLtF24 | .mfLtF20 | .mfLtF16 => .ok (placeBool (f32Lt a b))
  | .mfLeF24 | .mfLeF20 | .mfLeF16 => .ok (placeBool (f32Le a b))
  | .mfGtF24 | .mfGtF20 | .mfGtF16 => .ok (placeBool (f32Lt b a))
  | .mfGeF24 | .mfGeF20 | .mfGeF16 => .ok (placeBool (f32Le b a))
  | .mfEqF24 | .mfEqF20 | .mfEqF16 => .ok (placeBool (f32Eq a b))
  | .mfNeF24 | .mfNeF20 | .mfNeF16 => .ok (placeBool (!f32Eq a b))

/-- Every meaning answers the request on the ports with that response, under its own command byte. -/
theorem exec_eq (i : Instr) (s : State) : exec i s = s.answer (encode i) (responseOf s.config s.a s.b i) := by
  cases i <;> rfl

end Sys2Proof.Machine
end

