-- ==== Sys2Proof/Laws/MiniFloat.lean ====
section
/-! SUPPORT. What the minifloat decoder and encoder do to the fields, once for all (M, E) the spec allows
(00_scope.md R8). -/

namespace Sys2Proof.Machine

/-- The re-biasing constant keeps every exponent inside the normal binary32 exponents (41_minifloat_decoder.md R156). -/
theorem bias_bounds {E : Nat} (hE : E ≤ 7) : 64 ≤ bias E ∧ bias E + 2 ^ E - 1 ≤ 191 := by
  interval_cases E <;> decide

/-- The decoder, field by field. -/
theorem fromRaw_fields {M E : Nat} (hM : M ≤ 23) (hE : E ≤ 7) (bits : BitVec (M + E + 1)) :
    sgn (fromRaw M E bits) = bits.getLsbD (M + E) ∧
    (bits.toNat % 2 ^ (M + E) ≠ 0 →
      ex (fromRaw M E bits) = bits.toNat / 2 ^ M % 2 ^ E + bias E ∧
        fr (fromRaw M E bits) = bits.toNat % 2 ^ M * 2 ^ (23 - M)) ∧
    (bits.toNat % 2 ^ (M + E) = 0 → ex (fromRaw M E bits) = 0 ∧ fr (fromRaw M E bits) = 0) := by
  have hlow : bits.extractLsb' 0 (M + E) = 0#(M + E) ↔ bits.toNat % 2 ^ (M + E) = 0 := by
    rw [← BitVec.toNat_inj]
    simp [BitVec.extractLsb'_toNat]
  have hb := bias_bounds hE
  have hexp : (bits.extractLsb' M E).toNat = bits.toNat / 2 ^ M % 2 ^ E := by
    simp [BitVec.extractLsb'_toNat, Nat.shiftRight_eq_div_pow]
  have hlt : bits.toNat / 2 ^ M % 2 ^ E < 2 ^ E := Nat.mod_lt _ (by positivity)
  have hman : ((bits.extractLsb' 0 M).setWidth 23 <<< (23 - M)).toNat = bits.toNat % 2 ^ M * 2 ^ (23 - M) := by
    have h1 : bits.toNat % 2 ^ M < 2 ^ M := Nat.mod_lt _ (by positivity)
    have h2 : (2 : Nat) ^ M * 2 ^ (23 - M) = 2 ^ 23 := by rw [← pow_add]; congr 1; omega
    have h3 : bits.toNat % 2 ^ M * 2 ^ (23 - M) < 2 ^ 23 := by
      rw [← h2]; exact Nat.mul_lt_mul_of_pos_right h1 (by positivity)
    have h4 : bits.toNat % 2 ^ M < 2 ^ 23 := lt_of_lt_of_le h1 (Nat.pow_le_pow_right (by norm_num) hM)
    rw [BitVec.toNat_shiftLeft, BitVec.toNat_setWidth, BitVec.extractLsb'_toNat, Nat.shiftRight_zero,
      Nat.mod_eq_of_lt h4, Nat.shiftLeft_eq, Nat.mod_eq_of_lt h3]
  rw [fromRaw]
  by_cases h : bits.toNat % 2 ^ (M + E) = 0
  · simp [hlow.2 h, h, zeroOf]
  · have hn : bits.extractLsb' 0 (M + E) ≠ 0#(M + E) := fun hc => h (hlow.1 hc)
    simp only [ne_eq, hn, not_false_eq_true, if_true, sgn_assemble, ex_assemble, fr_assemble, hexp, hman,
      BitVec.toNat_ofNat, h, false_imp_iff, and_true, true_and, not_false_eq_true, true_imp_iff]
    exact Nat.mod_eq_of_lt (by omega)

/-- A sum of fields below one another is their disjunction. -/
theorem or_fields {w : Nat} (x y z : BitVec w) (i j s e m : Nat) (hx : x.toNat = s * 2 ^ (i + j)) (hy : y.toNat = e * 2 ^ i)
    (hz : z.toNat = m) (he : e < 2 ^ j) (hm : m < 2 ^ i) :
    (x ||| y ||| z).toNat = s * 2 ^ (i + j) + e * 2 ^ i + m := by
  have h1 : e * 2 ^ i < 2 ^ (i + j) := by
    rw [pow_add, Nat.mul_comm (2 ^ i)]
    exact Nat.mul_lt_mul_of_pos_right he (by positivity)
  have h2 : s * 2 ^ (i + j) ||| e * 2 ^ i = s * 2 ^ (i + j) + e * 2 ^ i := by
    rw [← Nat.shiftLeft_eq s, ← Nat.shiftLeft_add_eq_or_of_lt h1]
  have h3 : s * 2 ^ (i + j) + e * 2 ^ i = (s * 2 ^ j + e) <<< i := by
    rw [Nat.shiftLeft_eq, pow_add]; ring
  rw [BitVec.toNat_or, BitVec.toNat_or, hx, hy, hz, h2, h3, ← Nat.shiftLeft_add_eq_or_of_lt hm]

/-- The encoder, as one number (42_minifloat_encoder.md R172). -/
theorem toRaw_eq {M E : Nat} (hM : M ≤ 23) (hE : E ≤ 7) (a : F32) :
    toRaw M E a =
      if isZero a = true then .ok (BitVec.ofNat 32 ((sgn a).toNat * 2 ^ (M + E)))
      else if ex a < bias E ∨ bias E + 2 ^ E - 1 < ex a then .fault .encodeRange
      else .ok (BitVec.ofNat 32 ((sgn a).toNat * 2 ^ (M + E) + (ex a - bias E) * 2 ^ M + fr a / 2 ^ (23 - M))) := by
  have hb := bias_bounds hE
  have hs1 : (sgn a).toNat ≤ 1 := by cases sgn a <;> simp
  have hpow : (2 : Nat) ^ (M + E + 1) = 2 * 2 ^ (M + E) := by rw [pow_succ]; ring
  have hpos : 0 < 2 ^ (M + E) := by positivity
  have hsign : (((BitVec.ofBool (sgn a)).setWidth (M + E + 1) <<< (M + E))).toNat = (sgn a).toNat * 2 ^ (M + E) := by
    have h1 : (sgn a).toNat < 2 ^ (M + E + 1) := by omega
    have h2 : (sgn a).toNat * 2 ^ (M + E) < 2 ^ (M + E + 1) := by
      rw [hpow]; nlinarith
    rw [BitVec.toNat_shiftLeft, BitVec.toNat_setWidth, BitVec.toNat_ofBool, Nat.mod_eq_of_lt h1, Nat.shiftLeft_eq,
      Nat.mod_eq_of_lt h2]
  have hset : ∀ v : BitVec (M + E + 1), v.setWidth 32 = BitVec.ofNat 32 v.toNat := fun v => by
    apply BitVec.eq_of_toNat_eq
    simp
  simp only [toRaw]
  by_cases hz : isZero a = true
  · simp only [hz, if_true, hset, hsign]
  · by_cases hr : ex a < bias E ∨ bias E + 2 ^ E - 1 < ex a
    · simp only [hz, if_false, gt_iff_lt, hr, if_true, Bool.false_eq_true]
    · have he : ex a - bias E < 2 ^ E := by omega
      have hexp : ((BitVec.ofNat (M + E + 1) (ex a - bias E)) <<< M).toNat = (ex a - bias E) * 2 ^ M := by
        have h1 : (2 : Nat) ^ E ≤ 2 ^ (M + E + 1) := Nat.pow_le_pow_right (by norm_num) (by omega)
        have h2 : (ex a - bias E) * 2 ^ M < 2 ^ (M + E + 1) := by
          have : (ex a - bias E) * 2 ^ M < 2 ^ E * 2 ^ M := Nat.mul_lt_mul_of_pos_right he (by positivity)
          rw [← pow_add, Nat.add_comm E M] at this
          omega
        have h3 : ex a - bias E < 2 ^ (M + E + 1) := lt_of_lt_of_le he h1
        rw [BitVec.toNat_shiftLeft, BitVec.toNat_ofNat, Nat.mod_eq_of_lt h3, Nat.shiftLeft_eq, Nat.mod_eq_of_lt h2]
      have hfr : fr a / 2 ^ (23 - M) < 2 ^ M := by
        apply Nat.div_lt_of_lt_mul
        rw [← pow_add]
        exact lt_of_lt_of_le (fr_lt a) (Nat.pow_le_pow_right (by norm_num) (by omega))
      have hman : (BitVec.ofNat (M + E + 1) (fr a >>> (23 - M))).toNat = fr a / 2 ^ (23 - M) := by
        have h1 : (2 : Nat) ^ M ≤ 2 ^ (M + E + 1) := Nat.pow_le_pow_right (by norm_num) (by omega)
        rw [BitVec.toNat_ofNat, Nat.shiftRight_eq_div_pow, Nat.mod_eq_of_lt (lt_of_lt_of_le hfr h1)]
      simp only [hz, if_false, gt_iff_lt, hr, hset,
        or_fields _ _ _ M E (sgn a).toNat (ex a - bias E) (fr a / 2 ^ (23 - M)) hsign hexp hman he hfr, Bool.false_eq_true]

end Sys2Proof.Machine
end

