-- ==== Sys2Proof/Laws/PerInstr.lean ====
section
/-! SUPPORT. Statements about every operation, one lemma per constructor of `Instr`. -/

namespace Sys2Proof.Laws

/-- The byte the table lists for the operation decodes to the operation (30_encoding.md R62). -/
def DecodeEncode.Statement (i : Instr) : Prop := decode (encode i) = .ok i

theorem DecodeEncode.fxZero : DecodeEncode.Statement .fxZero := rfl
theorem DecodeEncode.fxFromraw : DecodeEncode.Statement .fxFromraw := rfl
theorem DecodeEncode.fxFromint : DecodeEncode.Statement .fxFromint := rfl
theorem DecodeEncode.fxFromfloat : DecodeEncode.Statement .fxFromfloat := rfl
theorem DecodeEncode.fxInt : DecodeEncode.Statement .fxInt := rfl
theorem DecodeEncode.fxFrac : DecodeEncode.Statement .fxFrac := rfl
theorem DecodeEncode.fxFloor : DecodeEncode.Statement .fxFloor := rfl
theorem DecodeEncode.fxCeil : DecodeEncode.Statement .fxCeil := rfl
theorem DecodeEncode.fxAdd : DecodeEncode.Statement .fxAdd := rfl
theorem DecodeEncode.fxSub : DecodeEncode.Statement .fxSub := rfl
theorem DecodeEncode.fxMul : DecodeEncode.Statement .fxMul := rfl
theorem DecodeEncode.fxDiv : DecodeEncode.Statement .fxDiv := rfl
theorem DecodeEncode.fxLt : DecodeEncode.Statement .fxLt := rfl
theorem DecodeEncode.fxLe : DecodeEncode.Statement .fxLe := rfl
theorem DecodeEncode.fxGt : DecodeEncode.Statement .fxGt := rfl
theorem DecodeEncode.fxGe : DecodeEncode.Statement .fxGe := rfl
theorem DecodeEncode.fxEq : DecodeEncode.Statement .fxEq := rfl
theorem DecodeEncode.fxNe : DecodeEncode.Statement .fxNe := rfl
theorem DecodeEncode.mfZeroF24 : DecodeEncode.Statement .mfZeroF24 := rfl
theorem DecodeEncode.mfZeroF20 : DecodeEncode.Statement .mfZeroF20 := rfl
theorem DecodeEncode.mfZeroF16 : DecodeEncode.Statement .mfZeroF16 := rfl
theorem DecodeEncode.mfFromrawF24 : DecodeEncode.Statement .mfFromrawF24 := rfl
theorem DecodeEncode.mfFromrawF20 : DecodeEncode.Statement .mfFromrawF20 := rfl
theorem DecodeEncode.mfFromrawF16 : DecodeEncode.Statement .mfFromrawF16 := rfl
theorem DecodeEncode.mfFromf32F24 : DecodeEncode.Statement .mfFromf32F24 := rfl
theorem DecodeEncode.mfFromf32F20 : DecodeEncode.Statement .mfFromf32F20 := rfl
theorem DecodeEncode.mfFromf32F16 : DecodeEncode.Statement .mfFromf32F16 := rfl
theorem DecodeEncode.mfTorawF24 : DecodeEncode.Statement .mfTorawF24 := rfl
theorem DecodeEncode.mfTorawF20 : DecodeEncode.Statement .mfTorawF20 := rfl
theorem DecodeEncode.mfTorawF16 : DecodeEncode.Statement .mfTorawF16 := rfl
theorem DecodeEncode.mfNegF24 : DecodeEncode.Statement .mfNegF24 := rfl
theorem DecodeEncode.mfNegF20 : DecodeEncode.Statement .mfNegF20 := rfl
theorem DecodeEncode.mfNegF16 : DecodeEncode.Statement .mfNegF16 := rfl
theorem DecodeEncode.mfAddF24 : DecodeEncode.Statement .mfAddF24 := rfl
theorem DecodeEncode.mfAddF20 : DecodeEncode.Statement .mfAddF20 := rfl
theorem DecodeEncode.mfAddF16 : DecodeEncode.Statement .mfAddF16 := rfl
theorem DecodeEncode.mfSubF24 : DecodeEncode.Statement .mfSubF24 := rfl
theorem DecodeEncode.mfSubF20 : DecodeEncode.Statement .mfSubF20 := rfl
theorem DecodeEncode.mfSubF16 : DecodeEncode.Statement .mfSubF16 := rfl
theorem DecodeEncode.mfMulF24 : DecodeEncode.Statement .mfMulF24 := rfl
theorem DecodeEncode.mfMulF20 : DecodeEncode.Statement .mfMulF20 := rfl
theorem DecodeEncode.mfMulF16 : DecodeEncode.Statement .mfMulF16 := rfl
theorem DecodeEncode.mfDivF24 : DecodeEncode.Statement .mfDivF24 := rfl
theorem DecodeEncode.mfDivF20 : DecodeEncode.Statement .mfDivF20 := rfl
theorem DecodeEncode.mfDivF16 : DecodeEncode.Statement .mfDivF16 := rfl
theorem DecodeEncode.mfLtF24 : DecodeEncode.Statement .mfLtF24 := rfl
theorem DecodeEncode.mfLtF20 : DecodeEncode.Statement .mfLtF20 := rfl
theorem DecodeEncode.mfLtF16 : DecodeEncode.Statement .mfLtF16 := rfl
theorem DecodeEncode.mfLeF24 : DecodeEncode.Statement .mfLeF24 := rfl
theorem DecodeEncode.mfLeF20 : DecodeEncode.Statement .mfLeF20 := rfl
theorem DecodeEncode.mfLeF16 : DecodeEncode.Statement .mfLeF16 := rfl
theorem DecodeEncode.mfGtF24 : DecodeEncode.Statement .mfGtF24 := rfl
theorem DecodeEncode.mfGtF20 : DecodeEncode.Statement .mfGtF20 := rfl
theorem DecodeEncode.mfGtF16 : DecodeEncode.Statement .mfGtF16 := rfl
theorem DecodeEncode.mfGeF24 : DecodeEncode.Statement .mfGeF24 := rfl
theorem DecodeEncode.mfGeF20 : DecodeEncode.Statement .mfGeF20 := rfl
theorem DecodeEncode.mfGeF16 : DecodeEncode.Statement .mfGeF16 := rfl
theorem DecodeEncode.mfEqF24 : DecodeEncode.Statement .mfEqF24 := rfl
theorem DecodeEncode.mfEqF20 : DecodeEncode.Statement .mfEqF20 := rfl
theorem DecodeEncode.mfEqF16 : DecodeEncode.Statement .mfEqF16 := rfl
theorem DecodeEncode.mfNeF24 : DecodeEncode.Statement .mfNeF24 := rfl
theorem DecodeEncode.mfNeF20 : DecodeEncode.Statement .mfNeF20 := rfl
theorem DecodeEncode.mfNeF16 : DecodeEncode.Statement .mfNeF16 := rfl

/-- The fields of the operation's byte: FX operations have no format and take `fmt = 0b00`
(30_encoding.md R61). FX `op` values lie below 0x20, MF ones from 0x20 on
(R62), and `fmt = 0b11` belongs to no operation. -/
def FieldsOfEncoding.Statement (i : Instr) : Prop :=
  fmtField (encode i) ≠ 3#2 ∧ (opField (encode i)).toNat < 0x36 ∧
    ((opField (encode i)).toNat < 0x20 → fmtField (encode i) = 0#2)

theorem FieldsOfEncoding.fxZero : FieldsOfEncoding.Statement .fxZero := ⟨by decide, by decide, by decide⟩
theorem FieldsOfEncoding.fxFromraw : FieldsOfEncoding.Statement .fxFromraw := ⟨by decide, by decide, by decide⟩
theorem FieldsOfEncoding.fxFromint : FieldsOfEncoding.Statement .fxFromint := ⟨by decide, by decide, by decide⟩
theorem FieldsOfEncoding.fxFromfloat : FieldsOfEncoding.Statement .fxFromfloat := ⟨by decide, by decide, by decide⟩
theorem FieldsOfEncoding.fxInt : FieldsOfEncoding.Statement .fxInt := ⟨by decide, by decide, by decide⟩
theorem FieldsOfEncoding.fxFrac : FieldsOfEncoding.Statement .fxFrac := ⟨by decide, by decide, by decide⟩
theorem FieldsOfEncoding.fxFloor : FieldsOfEncoding.Statement .fxFloor := ⟨by decide, by decide, by decide⟩
theorem FieldsOfEncoding.fxCeil : FieldsOfEncoding.Statement .fxCeil := ⟨by decide, by decide, by decide⟩
theorem FieldsOfEncoding.fxAdd : FieldsOfEncoding.Statement .fxAdd := ⟨by decide, by decide, by decide⟩
theorem FieldsOfEncoding.fxSub : FieldsOfEncoding.Statement .fxSub := ⟨by decide, by decide, by decide⟩
theorem FieldsOfEncoding.fxMul : FieldsOfEncoding.Statement .fxMul := ⟨by decide, by decide, by decide⟩
theorem FieldsOfEncoding.fxDiv : FieldsOfEncoding.Statement .fxDiv := ⟨by decide, by decide, by decide⟩
theorem FieldsOfEncoding.fxLt : FieldsOfEncoding.Statement .fxLt := ⟨by decide, by decide, by decide⟩
theorem FieldsOfEncoding.fxLe : FieldsOfEncoding.Statement .fxLe := ⟨by decide, by decide, by decide⟩
theorem FieldsOfEncoding.fxGt : FieldsOfEncoding.Statement .fxGt := ⟨by decide, by decide, by decide⟩
theorem FieldsOfEncoding.fxGe : FieldsOfEncoding.Statement .fxGe := ⟨by decide, by decide, by decide⟩
theorem FieldsOfEncoding.fxEq : FieldsOfEncoding.Statement .fxEq := ⟨by decide, by decide, by decide⟩
theorem FieldsOfEncoding.fxNe : FieldsOfEncoding.Statement .fxNe := ⟨by decide, by decide, by decide⟩
theorem FieldsOfEncoding.mfZeroF24 : FieldsOfEncoding.Statement .mfZeroF24 := ⟨by decide, by decide, by decide⟩
theorem FieldsOfEncoding.mfZeroF20 : FieldsOfEncoding.Statement .mfZeroF20 := ⟨by decide, by decide, by decide⟩
theorem FieldsOfEncoding.mfZeroF16 : FieldsOfEncoding.Statement .mfZeroF16 := ⟨by decide, by decide, by decide⟩
theorem FieldsOfEncoding.mfFromrawF24 : FieldsOfEncoding.Statement .mfFromrawF24 := ⟨by decide, by decide, by decide⟩
theorem FieldsOfEncoding.mfFromrawF20 : FieldsOfEncoding.Statement .mfFromrawF20 := ⟨by decide, by decide, by decide⟩
theorem FieldsOfEncoding.mfFromrawF16 : FieldsOfEncoding.Statement .mfFromrawF16 := ⟨by decide, by decide, by decide⟩
theorem FieldsOfEncoding.mfFromf32F24 : FieldsOfEncoding.Statement .mfFromf32F24 := ⟨by decide, by decide, by decide⟩
theorem FieldsOfEncoding.mfFromf32F20 : FieldsOfEncoding.Statement .mfFromf32F20 := ⟨by decide, by decide, by decide⟩
theorem FieldsOfEncoding.mfFromf32F16 : FieldsOfEncoding.Statement .mfFromf32F16 := ⟨by decide, by decide, by decide⟩
theorem FieldsOfEncoding.mfTorawF24 : FieldsOfEncoding.Statement .mfTorawF24 := ⟨by decide, by decide, by decide⟩
theorem FieldsOfEncoding.mfTorawF20 : FieldsOfEncoding.Statement .mfTorawF20 := ⟨by decide, by decide, by decide⟩
theorem FieldsOfEncoding.mfTorawF16 : FieldsOfEncoding.Statement .mfTorawF16 := ⟨by decide, by decide, by decide⟩
theorem FieldsOfEncoding.mfNegF24 : FieldsOfEncoding.Statement .mfNegF24 := ⟨by decide, by decide, by decide⟩
theorem FieldsOfEncoding.mfNegF20 : FieldsOfEncoding.Statement .mfNegF20 := ⟨by decide, by decide, by decide⟩
theorem FieldsOfEncoding.mfNegF16 : FieldsOfEncoding.Statement .mfNegF16 := ⟨by decide, by decide, by decide⟩
theorem FieldsOfEncoding.mfAddF24 : FieldsOfEncoding.Statement .mfAddF24 := ⟨by decide, by decide, by decide⟩
theorem FieldsOfEncoding.mfAddF20 : FieldsOfEncoding.Statement .mfAddF20 := ⟨by decide, by decide, by decide⟩
theorem FieldsOfEncoding.mfAddF16 : FieldsOfEncoding.Statement .mfAddF16 := ⟨by decide, by decide, by decide⟩
theorem FieldsOfEncoding.mfSubF24 : FieldsOfEncoding.Statement .mfSubF24 := ⟨by decide, by decide, by decide⟩
theorem FieldsOfEncoding.mfSubF20 : FieldsOfEncoding.Statement .mfSubF20 := ⟨by decide, by decide, by decide⟩
theorem FieldsOfEncoding.mfSubF16 : FieldsOfEncoding.Statement .mfSubF16 := ⟨by decide, by decide, by decide⟩
theorem FieldsOfEncoding.mfMulF24 : FieldsOfEncoding.Statement .mfMulF24 := ⟨by decide, by decide, by decide⟩
theorem FieldsOfEncoding.mfMulF20 : FieldsOfEncoding.Statement .mfMulF20 := ⟨by decide, by decide, by decide⟩
theorem FieldsOfEncoding.mfMulF16 : FieldsOfEncoding.Statement .mfMulF16 := ⟨by decide, by decide, by decide⟩
theorem FieldsOfEncoding.mfDivF24 : FieldsOfEncoding.Statement .mfDivF24 := ⟨by decide, by decide, by decide⟩
theorem FieldsOfEncoding.mfDivF20 : FieldsOfEncoding.Statement .mfDivF20 := ⟨by decide, by decide, by decide⟩
theorem FieldsOfEncoding.mfDivF16 : FieldsOfEncoding.Statement .mfDivF16 := ⟨by decide, by decide, by decide⟩
theorem FieldsOfEncoding.mfLtF24 : FieldsOfEncoding.Statement .mfLtF24 := ⟨by decide, by decide, by decide⟩
theorem FieldsOfEncoding.mfLtF20 : FieldsOfEncoding.Statement .mfLtF20 := ⟨by decide, by decide, by decide⟩
theorem FieldsOfEncoding.mfLtF16 : FieldsOfEncoding.Statement .mfLtF16 := ⟨by decide, by decide, by decide⟩
theorem FieldsOfEncoding.mfLeF24 : FieldsOfEncoding.Statement .mfLeF24 := ⟨by decide, by decide, by decide⟩
theorem FieldsOfEncoding.mfLeF20 : FieldsOfEncoding.Statement .mfLeF20 := ⟨by decide, by decide, by decide⟩
theorem FieldsOfEncoding.mfLeF16 : FieldsOfEncoding.Statement .mfLeF16 := ⟨by decide, by decide, by decide⟩
theorem FieldsOfEncoding.mfGtF24 : FieldsOfEncoding.Statement .mfGtF24 := ⟨by decide, by decide, by decide⟩
theorem FieldsOfEncoding.mfGtF20 : FieldsOfEncoding.Statement .mfGtF20 := ⟨by decide, by decide, by decide⟩
theorem FieldsOfEncoding.mfGtF16 : FieldsOfEncoding.Statement .mfGtF16 := ⟨by decide, by decide, by decide⟩
theorem FieldsOfEncoding.mfGeF24 : FieldsOfEncoding.Statement .mfGeF24 := ⟨by decide, by decide, by decide⟩
theorem FieldsOfEncoding.mfGeF20 : FieldsOfEncoding.Statement .mfGeF20 := ⟨by decide, by decide, by decide⟩
theorem FieldsOfEncoding.mfGeF16 : FieldsOfEncoding.Statement .mfGeF16 := ⟨by decide, by decide, by decide⟩
theorem FieldsOfEncoding.mfEqF24 : FieldsOfEncoding.Statement .mfEqF24 := ⟨by decide, by decide, by decide⟩
theorem FieldsOfEncoding.mfEqF20 : FieldsOfEncoding.Statement .mfEqF20 := ⟨by decide, by decide, by decide⟩
theorem FieldsOfEncoding.mfEqF16 : FieldsOfEncoding.Statement .mfEqF16 := ⟨by decide, by decide, by decide⟩
theorem FieldsOfEncoding.mfNeF24 : FieldsOfEncoding.Statement .mfNeF24 := ⟨by decide, by decide, by decide⟩
theorem FieldsOfEncoding.mfNeF20 : FieldsOfEncoding.Statement .mfNeF20 := ⟨by decide, by decide, by decide⟩
theorem FieldsOfEncoding.mfNeF16 : FieldsOfEncoding.Statement .mfNeF16 := ⟨by decide, by decide, by decide⟩

end Sys2Proof.Laws
end

