-- ==== Sys2Proof/Laws/Run.lean ====
section
/-! SUPPORT. What the run driver does, one lemma for each of its functions. -/

namespace Sys2Proof.Machine

@[simp] theorem sourceSet_temp (written : List Nat) (k : Nat) : sourceSet written (.temp k) = written.contains k := rfl

@[simp] theorem code_ne_zero (c : Fault) : c.code ≠ 0#3 := by cases c <;> decide

/-- A code on `cause` names the fault it came from (60_exceptions.md R252). -/
@[simp] theorem ofCode_code (c : Fault) : Fault.ofCode c.code = some c := by cases c <;> rfl

/-- A source can be read exactly where its temporary, if it is one, is set. -/
theorem sourceValue_ok_iff (temps : Temps) (src : Source) :
    (∃ w, sourceValue temps src = .ok w) ↔ sourceSet (temps.map Prod.fst) src = true := by
  cases src with
  | bits w => simp [sourceValue, sourceSet]
  | int n => simp [sourceValue, sourceSet]
  | decimal neg digits places => simp [sourceValue, sourceSet]
  | temp t =>
    rw [sourceSet_temp]
    induction temps with
    | nil => simp [sourceValue]
    | cons p ps ih =>
      obtain ⟨k, w⟩ := p
      by_cases h : t = k
      · subst h; simp [sourceValue]
      · have hb : (t == k) = false := by simpa using h
        simpa [sourceValue, List.lookup, hb, h] using ih

/-- A source that fits its operand can be read. -/
theorem sourceSet_of_wellFormed {written : List Nat} {t : Option ValueType} {src : Source}
    (h : sourceWellFormed written t src = true) : sourceSet written src = true := by
  cases src with
  | bits w => rfl
  | int n => rfl
  | decimal neg digits places => rfl
  | temp k => exact h

/-- A response without a fault binds `y` to the destination and appends it to the results. -/
theorem receive_ok (r : HostRun) (dest : Nat) (s : State) (h : s.err = 0#1) :
    r.receive dest s = .next { machine := s, temps := (dest, s.y) :: r.temps, results := r.results ++ [s.y] } := by
  simp [HostRun.receive, h]

/-- A fault ends the run in its cause. -/
theorem receive_fault (r : HostRun) (dest : Nat) (s : State) (c : Fault) (he : s.err = 1#1) (hc : s.cause = c.code) :
    r.receive dest s = .fault c := by
  simp [HostRun.receive, he, hc]

/-- A line whose sources can be read is the receipt of one step's response. -/
theorem line_eq (r : HostRun) (l : Line) {a b : Word} {t : State} (ha : sourceValue r.temps l.a = .ok a)
    (hb : sourceValue r.temps l.b = .ok b) (ht : step (r.machine.present l.cmd a b) = .next t) :
    r.line l = r.receive l.dest t := by
  simp [HostRun.line, ha, hb, ht]

end Sys2Proof.Machine
end

