-- ==== Sys2Proof/Laws/Values.lean ====
section
/-! SUPPORT. The value of a pattern as the rules write it is the count of units that the machine computes with
(00_scope.md R11). -/

namespace Sys2Proof.Machine

/-- `val(f)` is `valUnits f` units of 2^-149. -/
theorem realVal_eq (f : F32) : realVal f = (valUnits f : ℚ) / 2 ^ 149 := by
  have hm : (if ex f = 0 then (fr f : ℚ) / 2 ^ 23 * 2 ^ (-126 : ℤ)
      else (1 + (fr f : ℚ) / 2 ^ 23) * 2 ^ ((ex f : ℤ) - 127)) = (magUnits f : ℚ) / 2 ^ 149 := by
    unfold magUnits
    split
    · rw [zpow_neg]; norm_num; ring
    · rename_i h
      have he : ((ex f : ℤ) - 127) = ((ex f - 1 : ℕ) : ℤ) - 126 := by omega
      rw [he, zpow_sub₀ (by norm_num), zpow_natCast]
      push_cast
      norm_num
      ring
  unfold realVal valUnits
  rw [hm]
  cases sgn f <;> simp [neg_div]

/-- The magnitude of a value is `magUnits f` units of 2^-149. -/
theorem abs_realVal (f : F32) : |realVal f| = (magUnits f : ℚ) / 2 ^ 149 := by
  rw [realVal_eq, abs_div, valUnits]
  cases sgn f <;> simp

end Sys2Proof.Machine
end

