-- ==== Sys2Proof/Tests/Slice0.lean ====
section
/-! SUPPORT. Small tests, every expected value taken from spec/95_test_vectors.md or from the rule named, and one
witness for the hypotheses of each statement. -/

namespace Sys2Proof.Tests

open Sys2Proof Sys2Proof.Machine

/-- A state with this request on its ports. -/
def probe (cmd : Byte) (a b : Word) : State := State.reset.present cmd a b

/-- The `y` of the response, where `err = 0`. -/
def okY (cmd : Byte) (a b : Word) : Option Word :=
  match step (probe cmd a b) with
  | .next t => if t.err = 0#1 then some t.y else none
  | _ => none

/-- The `cause` of the response, where `err = 1`. -/
def faultCause (cmd : Byte) (a b : Word) : Option (BitVec 3) :=
  match step (probe cmd a b) with
  | .next t => if t.err = 1#1 then some t.cause else none
  | _ => none

/-- The response of an operation, with `FX_ROUND_TIES = away`. -/
def awayResponse (i : Instr) (a : Word) : Response := responseOf { fxRoundTies := .away } a 0#32 i

/-! ### Decoding: `fmt` and `op` written out from 30_encoding.md R61 and R62 -/

theorem test_decode_fxZero : decode (0b00#2 ++ 0b000000#6) = .ok .fxZero := by decide
theorem test_decode_fxFromraw : decode (0b00#2 ++ 0b000001#6) = .ok .fxFromraw := by decide
theorem test_decode_fxFromint : decode (0b00#2 ++ 0b000010#6) = .ok .fxFromint := by decide
theorem test_decode_fxFromfloat : decode (0b00#2 ++ 0b000011#6) = .ok .fxFromfloat := by decide
theorem test_decode_fxInt : decode (0b00#2 ++ 0b000100#6) = .ok .fxInt := by decide
theorem test_decode_fxFrac : decode (0b00#2 ++ 0b000101#6) = .ok .fxFrac := by decide
theorem test_decode_fxFloor : decode (0b00#2 ++ 0b000110#6) = .ok .fxFloor := by decide
theorem test_decode_fxCeil : decode (0b00#2 ++ 0b000111#6) = .ok .fxCeil := by decide
theorem test_decode_fxAdd : decode (0b00#2 ++ 0b001000#6) = .ok .fxAdd := by decide
theorem test_decode_fxSub : decode (0b00#2 ++ 0b001001#6) = .ok .fxSub := by decide
theorem test_decode_fxMul : decode (0b00#2 ++ 0b001010#6) = .ok .fxMul := by decide
theorem test_decode_fxDiv : decode (0b00#2 ++ 0b001011#6) = .ok .fxDiv := by decide
theorem test_decode_fxLt : decode (0b00#2 ++ 0b010000#6) = .ok .fxLt := by decide
theorem test_decode_fxLe : decode (0b00#2 ++ 0b010001#6) = .ok .fxLe := by decide
theorem test_decode_fxGt : decode (0b00#2 ++ 0b010010#6) = .ok .fxGt := by decide
theorem test_decode_fxGe : decode (0b00#2 ++ 0b010011#6) = .ok .fxGe := by decide
theorem test_decode_fxEq : decode (0b00#2 ++ 0b010100#6) = .ok .fxEq := by decide
theorem test_decode_fxNe : decode (0b00#2 ++ 0b010101#6) = .ok .fxNe := by decide
theorem test_decode_mfZeroF24 : decode (0b00#2 ++ 0b100000#6) = .ok .mfZeroF24 := by decide
theorem test_decode_mfZeroF20 : decode (0b01#2 ++ 0b100000#6) = .ok .mfZeroF20 := by decide
theorem test_decode_mfZeroF16 : decode (0b10#2 ++ 0b100000#6) = .ok .mfZeroF16 := by decide
theorem test_decode_mfFromrawF24 : decode (0b00#2 ++ 0b100001#6) = .ok .mfFromrawF24 := by decide
theorem test_decode_mfFromrawF20 : decode (0b01#2 ++ 0b100001#6) = .ok .mfFromrawF20 := by decide
theorem test_decode_mfFromrawF16 : decode (0b10#2 ++ 0b100001#6) = .ok .mfFromrawF16 := by decide
theorem test_decode_mfFromf32F24 : decode (0b00#2 ++ 0b100010#6) = .ok .mfFromf32F24 := by decide
theorem test_decode_mfFromf32F20 : decode (0b01#2 ++ 0b100010#6) = .ok .mfFromf32F20 := by decide
theorem test_decode_mfFromf32F16 : decode (0b10#2 ++ 0b100010#6) = .ok .mfFromf32F16 := by decide
theorem test_decode_mfTorawF24 : decode (0b00#2 ++ 0b100011#6) = .ok .mfTorawF24 := by decide
theorem test_decode_mfTorawF20 : decode (0b01#2 ++ 0b100011#6) = .ok .mfTorawF20 := by decide
theorem test_decode_mfTorawF16 : decode (0b10#2 ++ 0b100011#6) = .ok .mfTorawF16 := by decide
theorem test_decode_mfNegF24 : decode (0b00#2 ++ 0b100100#6) = .ok .mfNegF24 := by decide
theorem test_decode_mfNegF20 : decode (0b01#2 ++ 0b100100#6) = .ok .mfNegF20 := by decide
theorem test_decode_mfNegF16 : decode (0b10#2 ++ 0b100100#6) = .ok .mfNegF16 := by decide
theorem test_decode_mfAddF24 : decode (0b00#2 ++ 0b101000#6) = .ok .mfAddF24 := by decide
theorem test_decode_mfAddF20 : decode (0b01#2 ++ 0b101000#6) = .ok .mfAddF20 := by decide
theorem test_decode_mfAddF16 : decode (0b10#2 ++ 0b101000#6) = .ok .mfAddF16 := by decide
theorem test_decode_mfSubF24 : decode (0b00#2 ++ 0b101001#6) = .ok .mfSubF24 := by decide
theorem test_decode_mfSubF20 : decode (0b01#2 ++ 0b101001#6) = .ok .mfSubF20 := by decide
theorem test_decode_mfSubF16 : decode (0b10#2 ++ 0b101001#6) = .ok .mfSubF16 := by decide
theorem test_decode_mfMulF24 : decode (0b00#2 ++ 0b101010#6) = .ok .mfMulF24 := by decide
theorem test_decode_mfMulF20 : decode (0b01#2 ++ 0b101010#6) = .ok .mfMulF20 := by decide
theorem test_decode_mfMulF16 : decode (0b10#2 ++ 0b101010#6) = .ok .mfMulF16 := by decide
theorem test_decode_mfDivF24 : decode (0b00#2 ++ 0b101011#6) = .ok .mfDivF24 := by decide
theorem test_decode_mfDivF20 : decode (0b01#2 ++ 0b101011#6) = .ok .mfDivF20 := by decide
theorem test_decode_mfDivF16 : decode (0b10#2 ++ 0b101011#6) = .ok .mfDivF16 := by decide
theorem test_decode_mfLtF24 : decode (0b00#2 ++ 0b110000#6) = .ok .mfLtF24 := by decide
theorem test_decode_mfLtF20 : decode (0b01#2 ++ 0b110000#6) = .ok .mfLtF20 := by decide
theorem test_decode_mfLtF16 : decode (0b10#2 ++ 0b110000#6) = .ok .mfLtF16 := by decide
theorem test_decode_mfLeF24 : decode (0b00#2 ++ 0b110001#6) = .ok .mfLeF24 := by decide
theorem test_decode_mfLeF20 : decode (0b01#2 ++ 0b110001#6) = .ok .mfLeF20 := by decide
theorem test_decode_mfLeF16 : decode (0b10#2 ++ 0b110001#6) = .ok .mfLeF16 := by decide
theorem test_decode_mfGtF24 : decode (0b00#2 ++ 0b110010#6) = .ok .mfGtF24 := by decide
theorem test_decode_mfGtF20 : decode (0b01#2 ++ 0b110010#6) = .ok .mfGtF20 := by decide
theorem test_decode_mfGtF16 : decode (0b10#2 ++ 0b110010#6) = .ok .mfGtF16 := by decide
theorem test_decode_mfGeF24 : decode (0b00#2 ++ 0b110011#6) = .ok .mfGeF24 := by decide
theorem test_decode_mfGeF20 : decode (0b01#2 ++ 0b110011#6) = .ok .mfGeF20 := by decide
theorem test_decode_mfGeF16 : decode (0b10#2 ++ 0b110011#6) = .ok .mfGeF16 := by decide
theorem test_decode_mfEqF24 : decode (0b00#2 ++ 0b110100#6) = .ok .mfEqF24 := by decide
theorem test_decode_mfEqF20 : decode (0b01#2 ++ 0b110100#6) = .ok .mfEqF20 := by decide
theorem test_decode_mfEqF16 : decode (0b10#2 ++ 0b110100#6) = .ok .mfEqF16 := by decide
theorem test_decode_mfNeF24 : decode (0b00#2 ++ 0b110101#6) = .ok .mfNeF24 := by decide
theorem test_decode_mfNeF20 : decode (0b01#2 ++ 0b110101#6) = .ok .mfNeF20 := by decide
theorem test_decode_mfNeF16 : decode (0b10#2 ++ 0b110101#6) = .ok .mfNeF16 := by decide

theorem test_decode_unassigned : decode 0x0C#8 = .error .unassignedOp := by decide

theorem test_decode_fx_with_format : decode 0x48#8 = .error .fxWithFormat := by decide

theorem test_decode_reserved_format : decode 0xE8#8 = .error .reservedFormat := by decide

theorem test_table_word : decodeTableWord 8 0xA3 = some .mfTorawF16 := by decide

/-! ### Well-formedness: each check refuses an ill-formed term -/

theorem test_ill_formed_port_a : requestWellFormed .fxAdd 0x00010000#32 0#32 = false := by decide

theorem test_ill_formed_port_b : requestWellFormed .fxFromint 0#32 0x00010000#32 = false := by decide

theorem test_ill_formed_pattern : requestWellFormed .mfFromrawF20 0x00100000#32 0#32 = false := by decide

theorem test_well_formed_unread_port : requestWellFormed .fxInt 0x18#32 0xFFFFFFFF#32 = true := by decide

theorem test_ill_formed_literal : lineWellFormed [] ⟨0, 0x04#8, .bits 0x00010018#32, .bits 0#32⟩ = false := by decide

theorem test_ill_formed_int_for_f32 : lineWellFormed [] ⟨0, 0x03#8, .int 3, .bits 0#32⟩ = false := by decide

theorem test_ill_formed_decimal_for_fx : lineWellFormed [] ⟨0, 0x04#8, .decimal false 15 1, .bits 0#32⟩ = false := by
  decide

theorem test_ill_formed_unset_temporary : lineWellFormed [1] ⟨0, 0x04#8, .temp 0, .bits 0#32⟩ = false := by decide

theorem test_ill_formed_command : lineWellFormed [] ⟨0, 0x0C#8, .bits 0#32, .bits 0#32⟩ = false := by decide

theorem test_ill_formed_order :
    linesWellFormed [] [⟨0, 0x04#8, .temp 1, .bits 0#32⟩, ⟨1, 0x00#8, .bits 0#32, .bits 0#32⟩] = false := by decide

theorem test_well_formed_lines :
    linesWellFormed [] [⟨0, 0x02#8, .int 100, .int 4⟩, ⟨1, 0x03#8, .decimal false 15 1, .bits 0#32⟩,
      ⟨2, 0x0A#8, .temp 0, .temp 1⟩] = true := by decide

/-! ### The operations: spec/95_test_vectors.md sections 2.1 to 2.8 -/

theorem test_fxZero : okY 0x00#8 0xFFFFFFFF#32 0xFFFFFFFF#32 = some 0x00000000#32 := by decide
theorem test_fxFromraw : okY 0x01#8 0x00008001#32 0x00000000#32 = some 0x00008001#32 := by decide
theorem test_fxFromraw_2 : faultCause 0x01#8 0x00010000#32 0x00000000#32 = some 2#3 := by decide
theorem test_fxFromint : okY 0x02#8 0x0000F7FF#32 0x00000000#32 = some 0x00007FF0#32 := by decide
theorem test_fxFromint_2 : okY 0x02#8 0x00000005#32 0x0000FFF3#32 = some 0x00000053#32 := by decide
theorem test_fxFromfloat : okY 0x03#8 0xC5000180#32 0xFFFFFFFF#32 = some 0x00007FFE#32 := by decide
theorem test_fxFromfloat_2 : faultCause 0x03#8 0x7F800000#32 0x00000000#32 = some 4#3 := by decide
theorem test_fxInt : okY 0x04#8 0x0000FFE8#32 0xFFFFFFFF#32 = some 0x0000FFFE#32 := by decide
theorem test_fxInt_2 : faultCause 0x04#8 0x00010018#32 0x00000000#32 = some 2#3 := by decide
theorem test_fxFrac : okY 0x05#8 0x0000FFE8#32 0x00000000#32 = some 0x00000008#32 := by decide
theorem test_fxFloor : okY 0x06#8 0x0000FFE8#32 0x00000000#32 = some 0x0000FFE0#32 := by decide
theorem test_fxCeil : okY 0x07#8 0x00007FF1#32 0x00000000#32 = some 0x00008000#32 := by decide
theorem test_fxCeil_2 : okY 0x07#8 0x0000FFE1#32 0x00000000#32 = some 0x0000FFF0#32 := by decide
theorem test_fxAdd : okY 0x08#8 0x00007FF0#32 0x00000010#32 = some 0x00008000#32 := by decide
theorem test_fxSub : okY 0x09#8 0x00000000#32 0x00008000#32 = some 0x00008000#32 := by decide
theorem test_fxSub_2 : okY 0x09#8 0x00000018#32 0x00000028#32 = some 0x0000FFF0#32 := by decide
theorem test_fxMul : okY 0x0A#8 0x0000FFFF#32 0x00000001#32 = some 0x00000000#32 := by decide
theorem test_fxMul_2 : okY 0x0A#8 0x00000028#32 0x0000FFE8#32 = some 0x0000FFC4#32 := by decide
theorem test_fxDiv : okY 0x0B#8 0x0000FFF0#32 0x00000030#32 = some 0x0000FFFB#32 := by decide
theorem test_fxDiv_2 : faultCause 0x0B#8 0x00000010#32 0x00000000#32 = some 3#3 := by decide
theorem test_fxLt : okY 0x10#8 0x00008000#32 0x00007FFF#32 = some 0x00000001#32 := by decide
theorem test_fxLt_2 : faultCause 0x10#8 0x00010000#32 0x00010000#32 = some 2#3 := by decide
theorem test_fxLe : okY 0x11#8 0x00008000#32 0x00008000#32 = some 0x00000001#32 := by decide
theorem test_fxLe_2 : okY 0x11#8 0x00007FFF#32 0x00008000#32 = some 0x00000000#32 := by decide
theorem test_fxGt : okY 0x12#8 0x00007FF0#32 0x00000010#32 = some 0x00000001#32 := by decide
theorem test_fxGt_2 : okY 0x12#8 0x00008000#32 0x00008000#32 = some 0x00000000#32 := by decide
theorem test_fxGe : okY 0x13#8 0x0000FFF0#32 0x00000030#32 = some 0x00000000#32 := by decide
theorem test_fxGe_2 : okY 0x13#8 0x00008000#32 0x00008000#32 = some 0x00000001#32 := by decide
theorem test_fxEq : okY 0x14#8 0x00000018#32 0x00000018#32 = some 0x00000001#32 := by decide
theorem test_fxEq_2 : okY 0x14#8 0x0000FFF0#32 0x0000FFFF#32 = some 0x00000000#32 := by decide
theorem test_fxNe : okY 0x15#8 0x00000018#32 0x00000028#32 = some 0x00000001#32 := by decide
theorem test_fxNe_2 : okY 0x15#8 0x00000018#32 0x00000018#32 = some 0x00000000#32 := by decide
theorem test_mfZeroF24 : okY 0x20#8 0x00000007#32 0x00000009#32 = some 0x00000000#32 := by decide
theorem test_mfZeroF20 : okY 0x60#8 0x00000007#32 0x00000009#32 = some 0x00000000#32 := by decide
theorem test_mfZeroF16 : okY 0xA0#8 0x00000007#32 0x00000009#32 = some 0x00000000#32 := by decide
theorem test_mfFromrawF24 : okY 0x21#8 0x007F8000#32 0xFFFFFFFF#32 = some 0x5FC00000#32 := by decide
theorem test_mfFromrawF24_2 : faultCause 0x21#8 0x01000000#32 0x00000000#32 = some 2#3 := by decide
theorem test_mfFromrawF20 : okY 0x61#8 0x00080000#32 0x00000000#32 = some 0x80000000#32 := by decide
theorem test_mfFromrawF20_2 : okY 0x61#8 0x0003F001#32 0x00000000#32 = some 0x3F800800#32 := by decide
theorem test_mfFromrawF16 : okY 0xA1#8 0x00000001#32 0x00000000#32 = some 0x38002000#32 := by decide
theorem test_mfFromrawF16_2 : okY 0xA1#8 0x00007C00#32 0x00000000#32 = some 0x47800000#32 := by decide
theorem test_mfFromf32F24 : okY 0x22#8 0x7FC00001#32 0x00000000#32 = some 0x7FC00001#32 := by decide
theorem test_mfFromf32F20 : okY 0x62#8 0x7FC00001#32 0x00000000#32 = some 0x7FC00001#32 := by decide
theorem test_mfFromf32F16 : okY 0xA2#8 0x40490FDB#32 0x00000000#32 = some 0x40490FDB#32 := by decide
theorem test_mfTorawF24 : okY 0x23#8 0x40490FDB#32 0x00000000#32 = some 0x0040921F#32 := by decide
theorem test_mfTorawF24_2 : faultCause 0x23#8 0x60000000#32 0x00000000#32 = some 5#3 := by decide
theorem test_mfTorawF20 : okY 0x63#8 0x20000080#32 0x00000000#32 = some 0x00000000#32 := by decide
theorem test_mfTorawF20_2 : okY 0x63#8 0xBFC00000#32 0x00000000#32 = some 0x000BF800#32 := by decide
theorem test_mfTorawF16 : okY 0xA3#8 0x47FFFFFF#32 0x00000000#32 = some 0x00007FFF#32 := by decide
theorem test_mfTorawF16_2 : faultCause 0xA3#8 0x37FFFFFF#32 0x00000000#32 = some 5#3 := by decide
theorem test_mfNegF24 : okY 0x24#8 0x7FC00001#32 0x00000000#32 = some 0xFFC00001#32 := by decide
theorem test_mfNegF20 : okY 0x64#8 0x7FC00001#32 0x00000000#32 = some 0xFFC00001#32 := by decide
theorem test_mfNegF16 : okY 0xA4#8 0x00000000#32 0x00000000#32 = some 0x80000000#32 := by decide
theorem test_mfAddF24 : okY 0x28#8 0x3F800001#32 0x33800000#32 = some 0x3F800002#32 := by decide
theorem test_mfAddF20 : okY 0x68#8 0x7F7FFFFF#32 0x73000000#32 = some 0x7F800000#32 := by decide
theorem test_mfAddF16 : okY 0xA8#8 0x00800000#32 0x80000001#32 = some 0x007FFFFF#32 := by decide
theorem test_mfSubF24 : okY 0x29#8 0x3F800000#32 0x33800001#32 = some 0x3F7FFFFF#32 := by decide
theorem test_mfSubF20 : okY 0x69#8 0x80000000#32 0x00000000#32 = some 0x80000000#32 := by decide
theorem test_mfSubF16 : okY 0xA9#8 0x40490FDB#32 0x40490FDB#32 = some 0x00000000#32 := by decide
theorem test_mfMulF24 : okY 0x2A#8 0x00000000#32 0x7F800000#32 = some 0x00000000#32 := by decide
theorem test_mfMulF24_2 : okY 0x2A#8 0x3F800080#32 0x3F800080#32 = some 0x3F800100#32 := by decide
theorem test_mfMulF20 : okY 0x6A#8 0x80000000#32 0x40A00000#32 = some 0x00000000#32 := by decide
theorem test_mfMulF16 : okY 0xAA#8 0x00000001#32 0x3F000001#32 = some 0x00000001#32 := by decide
theorem test_mfDivF24 : okY 0x2B#8 0x3FC00000#32 0x40200000#32 = some 0x3F19999A#32 := by decide
theorem test_mfDivF20 : okY 0x6B#8 0x40A00000#32 0x80000000#32 = some 0xFF800000#32 := by decide
theorem test_mfDivF16 : okY 0xAB#8 0x00FFFFFF#32 0x3F000000#32 = some 0x017FFFFF#32 := by decide
theorem test_mfLtF24 : okY 0x30#8 0xFF800000#32 0x7F800000#32 = some 0x00000001#32 := by decide
theorem test_mfLtF20 : okY 0x70#8 0xC0000000#32 0xBF800000#32 = some 0x00000001#32 := by decide
theorem test_mfLtF16 : okY 0xB0#8 0x00000000#32 0x80000000#32 = some 0x00000000#32 := by decide
theorem test_mfLeF24 : okY 0x31#8 0x00000000#32 0x80000000#32 = some 0x00000001#32 := by decide
theorem test_mfLeF20 : okY 0x71#8 0x7FC00000#32 0x3F800000#32 = some 0x00000000#32 := by decide
theorem test_mfLeF16 : okY 0xB1#8 0x00000000#32 0x80000000#32 = some 0x00000001#32 := by decide
theorem test_mfGtF24 : okY 0x32#8 0x40000000#32 0x3F800000#32 = some 0x00000001#32 := by decide
theorem test_mfGtF20 : okY 0x72#8 0x40000000#32 0x3F800000#32 = some 0x00000001#32 := by decide
theorem test_mfGtF16 : okY 0xB2#8 0x7F800001#32 0x00000000#32 = some 0x00000000#32 := by decide
theorem test_mfGeF24 : okY 0x33#8 0x7FC00000#32 0x3F800000#32 = some 0x00000000#32 := by decide
theorem test_mfGeF20 : okY 0x73#8 0x3F800000#32 0x3F800000#32 = some 0x00000001#32 := by decide
theorem test_mfGeF16 : okY 0xB3#8 0x7FC00000#32 0x3F800000#32 = some 0x00000000#32 := by decide
theorem test_mfEqF24 : okY 0x34#8 0x7FC00000#32 0x7FC00000#32 = some 0x00000000#32 := by decide
theorem test_mfEqF20 : okY 0x74#8 0x3F800000#32 0x3F800001#32 = some 0x00000000#32 := by decide
theorem test_mfEqF16 : okY 0xB4#8 0x00000000#32 0x80000000#32 = some 0x00000001#32 := by decide
theorem test_mfNeF24 : okY 0x35#8 0x7FC00000#32 0x7FC00000#32 = some 0x00000001#32 := by decide
theorem test_mfNeF20 : okY 0x75#8 0x7F800000#32 0x7F800000#32 = some 0x00000000#32 := by decide
theorem test_mfNeF16 : okY 0xB5#8 0x7FC00000#32 0x7FC00000#32 = some 0x00000001#32 := by decide

theorem test_ties_away : awayResponse .fxFromfloat 0x42C91000#32 = .ok 0x00000649#32 := by decide

theorem test_priority : faultCause 0x0B#8 0x00010000#32 0#32 = some 2#3 := by decide

theorem test_illegal_before_all : faultCause 0xCB#8 0x00010000#32 0#32 = some 1#3 := by decide

/-- `inf - inf` completes with `err = 0`; its NaN is drawn and has no value to test (R198). -/
theorem test_nan_result_completes : (okY 0x29#8 0x7F800000#32 0x7F800000#32).isSome = true := by decide

/-! ### The host's side -/

theorem test_decimal_literal : decimalF32 false 15 1 = 0x3FC00000#32 := by decide

theorem test_run_ends_in_fault :
    (HostRun.start State.reset).lines [⟨0, 0x01#8, .bits 0x0#32, .bits 0#32⟩, ⟨1, 0x0B#8, .bits 0x10#32, .temp 0⟩,
      ⟨2, 0x00#8, .bits 0#32, .bits 0#32⟩] = .fault .divByZero := by rfl

/-- 95_test_vectors.md P7, lines 2: `t0 += t0` with `t0 = 3.5`. -/
theorem test_compound_add :
    ({ HostRun.start State.reset with temps := [(0, 0x38#32)] } : HostRun).lines [expandPseudo (.adda 0 (.temp 0))] =
      .next { machine := (probe 0x08#8 0x38#32 0x38#32).driveOk 0x70#32, temps := [(0, 0x70#32), (0, 0x38#32)],
              results := [0x70#32] } := by rfl

/-! ### Witnesses: a state and operands that meet the hypotheses of each statement, at boundary values -/

theorem witness_StepRunsDecodedInstruction :
    decode (probe 0xB5#8 0#32 0#32).cmd = .ok .mfNeF16 ∧ Instr.mfNeF16.wellFormed = true := by decide

theorem witness_ReservedCommandsFault :
    ReservedByte 0x0C#8 ∧ ReservedByte 0x3F#8 ∧ ReservedByte 0x40#8 ∧ ReservedByte 0xE0#8 ∧
    ¬ ReservedByte 0x00#8 ∧ ¬ ReservedByte 0x15#8 ∧ ¬ ReservedByte 0xB5#8 :=
  ⟨by decide, by decide, by decide, by decide, by decide, by decide, by decide⟩

theorem witness_PlacedCommandIsStepped : decodeTableWord 8 0x35 = some .mfNeF24 := by decide

theorem witness_RequestPortsAndConfigKept : ∃ t, step (probe 0x08#8 0xFFFF#32 1#32) = .next t := ⟨_, rfl⟩

/-- The same request on two NUMCOREs with different pasts. -/
theorem witness_ResponseDependsOnRequestAlone :
    ∃ s₁ s₂ : State, s₁ ≠ s₂ ∧ s₁.cmd = s₂.cmd ∧ s₁.a = s₂.a ∧ s₁.b = s₂.b ∧ s₁.config = s₂.config :=
  ⟨probe 0x29#8 0x7F800000#32 0x7F800000#32,
    { probe 0x29#8 0x7F800000#32 0x7F800000#32 with y := 5#32, err := 1#1, cause := 3#3, draws := 9 },
    by decide, rfl, rfl, rfl, rfl⟩

theorem witness_FaultLeavesNoTrace : ∃ t, step (probe 0x0B#8 1#32 0#32) = .next t ∧ t.err = 1#1 := ⟨_, rfl, rfl⟩

theorem witness_UnreadPortsIgnored :
    (Instr.fxInt.signature.a ≠ none → (0x18#32 : Word) = (probe 0x04#8 0x18#32 1#32).a) ∧
    (Instr.fxInt.signature.b ≠ none → (0xFFFFFFFF#32 : Word) = (probe 0x04#8 0x18#32 1#32).b) := by decide

/-- The two hypotheses of every FX template, at their boundary: a word of 16 ones, and the first word above 16 bits. -/
theorem witness_FxUnary_FxBinary :
    (probe 0x08#8 0xFFFF#32 0xFFFF#32).a = (0xFFFF#16 : Fx).setWidth 32 ∧
    (probe 0x08#8 0xFFFF#32 0xFFFF#32).b = (0xFFFF#16 : Fx).setWidth 32 ∧
    2 ^ 16 ≤ (probe 0x08#8 0x10000#32 0#32).a.toNat ∧ 2 ^ 16 ≤ (probe 0x08#8 0#32 0x10000#32).b.toNat ∧
    (0x40#8 : Byte) ≠ 0#8 ∧ opField 0x48#8 = opField 0x08#8 ∧ fmtField 0x48#8 ≠ 0#2 := by decide

theorem witness_FxFromfloatRoundsToNearest :
    isFinite (probe 0x03#8 0x7F7FFFFF#32 0#32).a = true ∧ isFinite (probe 0x03#8 0x3D000000#32 0#32).a = true ∧
    isFinite (probe 0x03#8 0x7F800000#32 0#32).a = false := by decide

theorem witness_FxFromfloatHugeIsZero :
    isFinite (probe 0x03#8 0x51000000#32 0#32).a = true ∧ 2 ^ 35 ≤ |realVal (probe 0x03#8 0x51000000#32 0#32).a| := by
  refine ⟨by decide, ?_⟩
  have h : realVal (probe 0x03#8 0x51000000#32 0#32).a = 2 ^ 35 := by
    have h1 : sgn (probe 0x03#8 0x51000000#32 0#32).a = false := by decide
    have h2 : ex (probe 0x03#8 0x51000000#32 0#32).a = 162 := by decide
    have h3 : fr (probe 0x03#8 0x51000000#32 0#32).a = 0 := by decide
    simp only [realVal, h1, h2, h3]
    norm_num
  rw [h]
  norm_num

theorem witness_FxFromfloatOfExactValue :
    isFinite (probe 0x03#8 0x3FC00000#32 0#32).a = true ∧
    realVal (probe 0x03#8 0x3FC00000#32 0#32).a = ((0x18#16 : Fx).toInt : ℚ) / 16 := by
  refine ⟨by decide, ?_⟩
  have h1 : sgn (probe 0x03#8 0x3FC00000#32 0#32).a = false := by decide
  have h2 : ex (probe 0x03#8 0x3FC00000#32 0#32).a = 127 := by decide
  have h3 : fr (probe 0x03#8 0x3FC00000#32 0#32).a = 4194304 := by decide
  have h4 : (0x18#16 : Fx).toInt = 24 := by decide
  simp only [realVal, h1, h2, h3, h4]
  norm_num

theorem witness_FxCeilIsSmallestAbove : (0x7FF0#16 : Fx).toInt ≤ 0x7FF0 ∧ ¬ (0x7FF1#16 : Fx).toInt ≤ 0x7FF0 := by decide

theorem witness_FxMulTruncates :
    Gives .fxMul State.reset ((0x8000#16 : Fx).setWidth 32) ((0xFFF0#16 : Fx).setWidth 32) 0x8000#32 := by rfl

theorem witness_FxConstructionRoundTrip : (-2048 : ℤ) ≤ -2048 ∧ (2047 : ℤ) ≤ 2047 ∧ (15 : ℕ) ≤ 15 := by decide

theorem witness_FxOrderIsTotal :
    Gives .fxLt State.reset ((0x8000#16 : Fx).setWidth 32) ((0xFFFF#16 : Fx).setWidth 32) 1#32 ∧
    Gives .fxLt State.reset ((0xFFFF#16 : Fx).setWidth 32) ((0x7FFF#16 : Fx).setWidth 32) 1#32 := ⟨rfl, rfl⟩

theorem witness_MfFromrawAssemblesFields :
    (probe 0x21#8 0xFFFFFF#32 0#32).a.toNat < 2 ^ Format.f24.W ∧
    2 ^ Format.f24.W ≤ (probe 0x21#8 0x1000000#32 0#32).a.toNat := by decide

theorem witness_MfFromrawValue :
    (probe 0xA1#8 0x8001#32 0#32).a.toNat < 2 ^ Format.f16.W ∧
    (probe 0xA1#8 0x8001#32 0#32).a.toNat % 2 ^ (Format.f16.M + Format.f16.E) ≠ 0 := by decide

theorem witness_MfFromrawImage : (probe 0x61#8 0xFFFFF#32 0#32).a.toNat < 2 ^ Format.f20.W := by decide

theorem witness_MfFromrawInjective :
    (0x3C00#32 : Word).toNat < 2 ^ Format.f16.W ∧ Gives (fromrawOp .f16) State.reset 0x3C00#32 0#32 0x3F800000#32 :=
  ⟨by decide, rfl⟩

theorem witness_RoundTripPatternFirst : (0xFFFF#32 : Word).toNat < 2 ^ Format.f16.W := by decide

theorem witness_RoundTripFloatFirst :
    Gives (torawOp .f24) State.reset 0x40490FDB#32 0#32 0x40921F#32 ∧
    Gives (torawOp .f20) State.reset 0x20000080#32 0#32 0x00000#32 := ⟨rfl, rfl⟩

theorem witness_TorawTruncates :
    Gives (torawOp .f16) State.reset 0x47FFFFFF#32 0#32 0x7FFF#32 ∧
    ¬ (ex 0x47FFFFFF#32 = bias Format.f16.E ∧ fr 0x47FFFFFF#32 < 2 ^ (23 - Format.f16.M)) ∧
    (0x7FFE#32 : Word).toNat < 2 ^ Format.f16.W ∧
    Gives (fromrawOp .f16) State.reset 0x7FFE#32 0#32 0x47FFC000#32 := ⟨rfl, by decide, by decide, rfl⟩

theorem witness_TorawCollidesWithZero :
    ex (probe 0xA3#8 0x38001FFF#32 0#32).a = bias Format.f16.E ∧
    fr (probe 0xA3#8 0x38001FFF#32 0#32).a < 2 ^ (23 - Format.f16.M) ∧
    ex (probe 0xA3#8 0x37FFFFFF#32 0#32).a = bias Format.f16.E - 1 := by decide

theorem witness_WideningChainsExact :
    (Format.f20 = .f20 ∧ Format.f24 = .f24) ∧ (0xFFFFF#32 : Word).toNat < 2 ^ Format.f20.W := by decide

theorem witness_NarrowingChainsTruncate :
    (0xFFFFFF#32 : Word).toNat < 2 ^ 24 ∧ (0x800000#32 : Word).toNat % 2 ^ (Format.f24.M + Format.f24.E) = 0 ∧
    (0x300000#32 : Word).toNat / 2 ^ Format.f24.M % 2 ^ Format.f24.E = 48 ∧
    (0x4FFFFF#32 : Word).toNat / 2 ^ Format.f24.M % 2 ^ Format.f24.E = 79 := by decide

theorem witness_MfZeroIsAdditiveIdentity : isNan 0x80000000#32 = false ∧ isNan 0x7F800000#32 = false := by decide

theorem witness_BinarySubAddsNegation :
    (isNan 0x00000001#32 = false ∧ isInf 0x00000001#32 = false) ∧ isFinite 0x7F7FFFFF#32 = true ∧
    isInf 0xFF800000#32 = true := by decide

theorem witness_NanResultsAreDrawn :
    isNan (probe 0x2A#8 0#32 0x7F800001#32).b = true ∧ isNan 0xFFFFFFFF#32 = true ∧
    (isInf (probe 0x28#8 0x7F800000#32 0xFF800000#32).a = true ∧ isInf (probe 0x28#8 0x7F800000#32 0xFF800000#32).b = true ∧
      sgn (probe 0x28#8 0x7F800000#32 0xFF800000#32).a ≠ sgn (probe 0x28#8 0x7F800000#32 0xFF800000#32).b) ∧
    (isInf (probe 0x29#8 0xFF800000#32 0xFF800000#32).a = true ∧
      sgn (probe 0x29#8 0xFF800000#32 0xFF800000#32).a = sgn (probe 0x29#8 0xFF800000#32 0xFF800000#32).b) ∧
    isZero (probe 0x2B#8 0x80000000#32 0#32).a = true ∧ isZero (probe 0x2B#8 0x80000000#32 0#32).b = true := by decide

theorem witness_MfOrderOnNonNan :
    isNan 0x7FC00000#32 = true ∧ isNan 0x7F800000#32 = false ∧ f32Le 0xFF800000#32 0x80000000#32 = true ∧
    f32Le 0x80000000#32 0x00000000#32 = true := by decide

/-- One run for each clause: a list that ends normally, a list that ends in a fault, and a line whose request is answered
with `err = 1` and one with `err = 0`. -/
theorem witness_RunEndsAtFirstFault :
    (∃ r', (HostRun.start State.reset).lines [⟨0, 0x00#8, .bits 0#32, .bits 0#32⟩] = .next r') ∧
    (HostRun.start State.reset).lines [⟨0, 0x0C#8, .bits 0#32, .bits 0#32⟩] = .fault .illegalOp ∧
    (∃ t, step (State.reset.present 0x0B#8 1#32 0#32) = .next t ∧
      FaultedFrom (State.reset.present 0x0B#8 1#32 0#32) Fault.divByZero.code t) ∧
    (∃ t, step (State.reset.present 0x0B#8 1#32 1#32) = .next t ∧ t.err = 0#1) ∧
    sourceValue [] (.bits 1#32) = .ok 1#32 :=
  ⟨⟨_, rfl⟩, rfl, ⟨_, rfl, _, rfl⟩, ⟨_, rfl, rfl⟩, rfl⟩

/-- The two clauses; the last line of the first is issuable and not well formed (its literal is too wide). -/
theorem witness_WellFormedRunIsNeverRefused :
    linesIssuable ((HostRun.start State.reset).temps.map Prod.fst)
      [⟨0, 0x00#8, .bits 0#32, .bits 0#32⟩, ⟨0, 0x08#8, .temp 0, .bits 0x10000#32⟩] = true ∧
    linesWellFormed []
      [⟨0, 0x00#8, .bits 0#32, .bits 0#32⟩, ⟨0, 0x08#8, .temp 0, .bits 0x10000#32⟩] = false ∧
    linesWellFormed ((HostRun.start State.reset).temps.map Prod.fst)
      [⟨0, 0x02#8, .int (-7), .int 0⟩, ⟨0, 0x08#8, .temp 0, .temp 0⟩] = true := by decide

/-- A source that can be read beside a fresh destination 4 (95_test_vectors.md P6, `FX.FROMINT t4, 3`) and beside the set
destination 0. -/
theorem witness_PseudoInstructionsExpand :
    sourceValue [(0, 0x38#32)] (.int 3) = .ok 3#32 ∧ sourceValue [(0, 0x38#32)] (.temp 4) = .error 4 ∧
    sourceValue [(0, 0x38#32)] (.temp 0) = .ok 0x38#32 := ⟨rfl, rfl, rfl⟩

end Sys2Proof.Tests
end

section
/-! # The response of every step is well formed

What a request may be answered with is said once, as `Response.Fits`, and shown operation by operation; that a
response which fits, driven on the ports, satisfies the invariant `ResponseWellFormed` is then a matter of the two
drives (10_state.md R22; 30_encoding.md R65; 60_exceptions.md R252). -/

namespace Sys2Proof.Machine

/-! ### Responses that fit a result width -/

/-- A response that an operation with a result of `n` bits may give: a word with zeros above bit `n - 1`, a NaN where
the result has a pattern's 32 bits, or any fault but ILLEGAL_OP (30_encoding.md R65; 60_exceptions.md R252). -/
def Response.Fits (n : Nat) : Response → Prop
  | .ok y => y.toNat < 2 ^ n
  | .anyNan => 32 ≤ n
  | .fault c => c ≠ .illegalOp

@[simp] theorem fits_ok_iff (n : Nat) (y : Word) : (Response.ok y).Fits n ↔ y.toNat < 2 ^ n := Iff.rfl

@[simp] theorem fits_anyNan_iff (n : Nat) : Response.anyNan.Fits n ↔ 32 ≤ n := Iff.rfl

@[simp] theorem fits_fault_iff (n : Nat) (c : Fault) : (Response.fault c).Fits n ↔ c ≠ .illegalOp := Iff.rfl

/-- Every word fits the ports' own width. -/
theorem fits_ok_word (y : Word) : (Response.ok y).Fits 32 := y.isLt

/-- Whatever an operation without a fault answers fits the ports' own width. -/
theorem fits_of_ne_fault {r : Response} (h : ∀ c, r ≠ .fault c) : r.Fits 32 := by
  cases r with
  | ok y => exact fits_ok_word y
  | anyNan => exact Nat.le_refl 32
  | fault c => exact absurd rfl (h c)

/-- A narrow word on the port `y` has zeros above its own width (30_encoding.md R65). -/
theorem fits_ok_setWidth {n : Nat} (v : BitVec n) : (Response.ok (v.setWidth 32)).Fits n := by
  rw [fits_ok_iff, BitVec.toNat_setWidth]
  exact (Nat.mod_le _ _).trans_lt v.isLt

theorem fits_placeFx (v : Fx) : (Response.ok (placeFx v)).Fits 16 := fits_ok_setWidth v

theorem fits_placeBool (p : Bool) : (Response.ok (placeBool p)).Fits 1 := by cases p <;> simp [placeBool]

/-! ### The operand checks -/

/-- The check of an operand adds OPERAND_RANGE, and nothing else, to what the operation answers. -/
theorem fits_withOperand {n Wt : Nat} {p : Word} {k : BitVec Wt → Response} (h : ∀ v, (k v).Fits n) :
    (withOperand Wt p k).Fits n := by
  unfold withOperand
  split
  · exact h _
  · simp

theorem fits_withFx1 {n : Nat} {a : Word} {k : Fx → Response} (h : ∀ A, (k A).Fits n) : (withFx1 a k).Fits n :=
  fits_withOperand h

theorem fits_withFx2 {n : Nat} {a b : Word} {k : Fx → Fx → Response} (h : ∀ A B, (k A B).Fits n) :
    (withFx2 a b k).Fits n :=
  fits_withOperand fun A => fits_withOperand (h A)

/-! ### The operations with a fault or a drawn NaN of their own -/

theorem fits_fxFromFloat (ties : RoundTies) (a : F32) : (fxFromFloat ties a).Fits 16 := by
  unfold fxFromFloat
  split
  · simp
  · exact fits_placeFx _

theorem fits_fxDiv (A B : Fx) : (fxDiv A B).Fits 16 := by
  unfold fxDiv
  split
  · simp
  · exact fits_placeFx _

theorem fits_toRaw (M E : Nat) (a : F32) : (toRaw M E a).Fits (M + E + 1) := by
  unfold toRaw
  split
  · exact fits_ok_setWidth _
  · split
    · simp
    · exact fits_ok_setWidth _

/-! The binary32 arithmetic has no fault (43_minifloat_arithmetic.md R192 to R195). -/

theorem f32Add_ne_fault (A B : F32) (c : Fault) : f32Add A B ≠ .fault c := by
  unfold f32Add
  dsimp only
  split_ifs <;> simp

theorem f32Sub_ne_fault (A B : F32) (c : Fault) : f32Sub A B ≠ .fault c := by
  unfold f32Sub
  split
  · simp
  · exact f32Add_ne_fault A (f32Neg B) c

theorem f32Mul_ne_fault (A B : F32) (c : Fault) : f32Mul A B ≠ .fault c := by
  unfold f32Mul
  dsimp only
  split_ifs <;> simp

theorem f32Div_ne_fault (A B : F32) (c : Fault) : f32Div A B ≠ .fault c := by
  unfold f32Div
  dsimp only
  split_ifs <;> simp

theorem mfMul_ne_fault (A B : F32) (c : Fault) : mfMul A B ≠ .fault c := by
  unfold mfMul
  split
  · simp
  · exact f32Mul_ne_fault A B c

/-! ### Every operation -/

/-- Every operation answers within the width of its result type, and none raises ILLEGAL_OP. -/
theorem responseOf_fits (config : Config) (a b : Word) (i : Instr) :
    (responseOf config a b i).Fits i.signature.y.width := by
  cases i with
  | fxZero => exact fits_placeFx 0
  | fxFromraw | fxInt | fxFrac | fxFloor | fxCeil => exact fits_withFx1 fun _ => fits_placeFx _
  | fxFromint | fxAdd | fxSub | fxMul => exact fits_withFx2 fun _ _ => fits_placeFx _
  | fxFromfloat => exact fits_fxFromFloat _ _
  | fxDiv => exact fits_withFx2 fits_fxDiv
  | fxLt | fxLe | fxGt | fxGe | fxEq | fxNe => exact fits_withFx2 fun _ _ => fits_placeBool _
  | mfZeroF24 | mfZeroF20 | mfZeroF16 | mfFromf32F24 | mfFromf32F20 | mfFromf32F16 | mfNegF24 | mfNegF20 | mfNegF16 =>
    exact fits_ok_word _
  | mfFromrawF24 | mfFromrawF20 | mfFromrawF16 => exact fits_withOperand fun _ => fits_ok_word _
  | mfTorawF24 | mfTorawF20 | mfTorawF16 => exact fits_toRaw _ _ _
  | mfAddF24 | mfAddF20 | mfAddF16 => exact fits_of_ne_fault (f32Add_ne_fault _ _)
  | mfSubF24 | mfSubF20 | mfSubF16 => exact fits_of_ne_fault (f32Sub_ne_fault _ _)
  | mfMulF24 | mfMulF20 | mfMulF16 => exact fits_of_ne_fault (mfMul_ne_fault _ _)
  | mfDivF24 | mfDivF20 | mfDivF16 => exact fits_of_ne_fault (f32Div_ne_fault _ _)
  | mfLtF24 | mfLtF20 | mfLtF16 | mfLeF24 | mfLeF20 | mfLeF16 | mfGtF24 | mfGtF20 | mfGtF16 | mfGeF24 | mfGeF20
  | mfGeF16 | mfEqF24 | mfEqF20 | mfEqF16 | mfNeF24 | mfNeF20 | mfNeF16 => exact fits_placeBool _

/-! ### Driving a response -/

/-- The codes of the faults are 1 to 5 (60_exceptions.md R252). -/
theorem Fault.code_bounds (c : Fault) : 1 ≤ c.code.toNat ∧ c.code.toNat ≤ 5 := by cases c <;> decide

/-- Code 1 is ILLEGAL_OP alone (60_exceptions.md R252). -/
theorem Fault.code_eq_one_iff (c : Fault) : c.code = 1#3 ↔ c = .illegalOp := by cases c <;> decide

/-- Driving a word that fits the operation on `cmd` gives a well-formed response. -/
theorem responseWellFormed_driveOk {s : State} {i : Instr} {y : Word} (hdec : decode s.cmd = .ok i)
    (hy : y.toNat < 2 ^ i.signature.y.width) : ResponseWellFormed (s.driveOk y) :=
  .inl ⟨rfl, rfl, i, hdec, hy⟩

/-- Driving a fault that is ILLEGAL_OP exactly where the byte on `cmd` is reserved gives a well-formed response. -/
theorem responseWellFormed_driveFault {s : State} {c : Fault} (cmd : Byte)
    (hc : c = .illegalOp ↔ ∀ i, decode s.cmd ≠ .ok i) : ResponseWellFormed (s.driveFault cmd c) := by
  obtain ⟨hlow, hhigh⟩ := c.code_bounds
  exact .inr ⟨rfl, hlow, hhigh, c.code_eq_one_iff.trans hc⟩

/-- The operation on `cmd` answers a next state with a well-formed response. -/
theorem exec_gives_wellFormed_response {s : State} {i : Instr} (hdec : decode s.cmd = .ok i) :
    ∃ t, exec i s = .next t ∧ ResponseWellFormed t := by
  have hfits := responseOf_fits s.config s.a s.b i
  rw [exec_eq]
  obtain ⟨y, hr, ht⟩ | ⟨hr, ht⟩ | ⟨c, hr, ht⟩ := answer_cases s (encode i) (responseOf s.config s.a s.b i)
  · rw [hr] at hfits
    exact ⟨_, ht, responseWellFormed_driveOk hdec hfits⟩
  · rw [hr] at hfits
    have hwidth : 2 ^ 32 ≤ 2 ^ i.signature.y.width := Nat.pow_le_pow_right (by omega) hfits
    exact ⟨_, ht, responseWellFormed_driveOk hdec ((BitVec.isLt _).trans_le hwidth)⟩
  · rw [hr] at hfits
    exact ⟨_, ht, responseWellFormed_driveFault _ ⟨fun h => absurd h hfits, fun h => absurd hdec (h i)⟩⟩

/-- Settles O7: a decoded operation by what it may answer, a reserved byte by its ILLEGAL_OP. -/
theorem everyStepGivesWellFormedResponse : Obligations.EveryStepGivesWellFormedResponse := by
  intro s
  obtain ⟨i, hdec, hstep⟩ | ⟨e, hdec, hstep⟩ := step_cases s
  · rw [hstep]
    exact exec_gives_wellFormed_response hdec
  · have hreserved : ∀ i, decode s.cmd ≠ .ok i := by simp [hdec]
    exact ⟨_, hstep, responseWellFormed_driveFault _ ⟨fun _ => hreserved, fun _ => rfl⟩⟩

end Sys2Proof.Machine
end

section
/-! # What a step runs and what it leaves unchanged

A step is `exec` of the operation that the byte on `cmd` decodes to, and every outcome of a step is one response driven
by `State.answer`, which writes `y`, `err`, `cause` and the model's counter alone (10_state.md R20 to R22). -/

namespace Sys2Proof.Machine

/-- The operation on `cmd` is the one that the step runs (10_state.md R20). -/
theorem step_of_decode {s : State} {i : Instr} (hdec : decode s.cmd = .ok i) : step s = exec i s := by
  simp [step, hdec]

/-- A reserved byte on `cmd` is answered with ILLEGAL_OP (30_encoding.md R66). -/
theorem step_of_decode_error {s : State} {e : DecodeError} (hdec : decode s.cmd = .error e) :
    step s = s.answer s.cmd (.fault .illegalOp) := by
  simp [step, hdec, State.rejectCommand]

/-- The table's decoder reads the low byte of a word (30_encoding.md R60, R67). -/
theorem decodeTableWord_eq_some_iff (n w : Nat) (i : Instr) :
    decodeTableWord n w = some i ↔ decode (BitVec.ofNat 8 w) = .ok i := by
  unfold decodeTableWord
  cases decode (BitVec.ofNat 8 w) with
  | ok j => simp
  | error e => simp

/-- The word placed for the next step lies on `cmd`, as its low byte. -/
@[simp] theorem State.withFetchWord_cmd (s : State) (n w : Nat) : (s.withFetchWord n w).cmd = BitVec.ofNat 8 w := rfl

/-- The frame of driving a response: the request ports and the configuration stay, and the model's counter goes up by
one (10_state.md R21, R26; 60_exceptions.md R251). -/
theorem answer_frame {s t : State} {cmd : Byte} {r : Response} (h : s.answer cmd r = .next t) :
    t.cmd = s.cmd ∧ t.a = s.a ∧ t.b = s.b ∧ t.config = s.config ∧ t.draws = s.draws + 1 := by
  cases r with
  | ok y => cases h; simp
  | anyNan => cases h; simp
  | fault c => cases h; simp

/-- Every step drives one response. -/
theorem step_eq_answer (s : State) : ∃ cmd r, step s = s.answer cmd r := by
  obtain ⟨i, -, hstep⟩ | ⟨e, -, hstep⟩ := step_cases s
  · exact ⟨_, _, hstep.trans (exec_eq i s)⟩
  · exact ⟨_, _, hstep⟩

/-- Settles O1. -/
theorem stepRunsDecodedInstruction : Obligations.StepRunsDecodedInstruction :=
  fun _ _ hdec _ => step_of_decode hdec

/-- Settles O5: what the table's decoder reads from the word is what `decode` reads from `cmd`. -/
theorem placedCommandIsStepped : Obligations.PlacedCommandIsStepped := by
  intro s n w i hw
  apply step_of_decode
  rw [State.withFetchWord_cmd]
  exact (decodeTableWord_eq_some_iff n w i).1 hw

/-- Settles O6: the zeros of reset read as the response of FX.ZERO (log entry 3). -/
theorem resetResponseWellFormed : Obligations.ResetResponseWellFormed :=
  ⟨.inl ⟨rfl, rfl, .fxZero, rfl, by decide⟩, rfl⟩

/-- Settles O8, by the frame of driving a response. -/
theorem requestPortsAndConfigKept : Obligations.RequestPortsAndConfigKept := by
  intro s t ht
  obtain ⟨cmd, r, hstep⟩ := step_eq_answer s
  exact answer_frame (hstep.symm.trans ht)

end Sys2Proof.Machine
end

section
/-! # The response depends on the request alone

Two states that drive the same response show the same response ports, but for two different draws where that response
is some NaN; and only MF.ADD, MF.SUB, MF.MUL and MF.DIV answer some NaN (10_state.md R20; 43_minifloat_arithmetic.md
R198). -/

namespace Sys2Proof.Machine

/-! ### Which operations draw -/

theorem ok_ne_anyNan (y : Word) : Response.ok y ≠ .anyNan := nofun

theorem withOperand_ne_anyNan {Wt : Nat} {p : Word} {k : BitVec Wt → Response} (h : ∀ v, k v ≠ .anyNan) :
    withOperand Wt p k ≠ .anyNan := by
  unfold withOperand
  split
  · exact h _
  · simp

theorem withFx1_ne_anyNan {a : Word} {k : Fx → Response} (h : ∀ A, k A ≠ .anyNan) : withFx1 a k ≠ .anyNan :=
  withOperand_ne_anyNan h

theorem withFx2_ne_anyNan {a b : Word} {k : Fx → Fx → Response} (h : ∀ A B, k A B ≠ .anyNan) :
    withFx2 a b k ≠ .anyNan :=
  withOperand_ne_anyNan fun A => withOperand_ne_anyNan (h A)

theorem fxFromFloat_ne_anyNan (ties : RoundTies) (a : F32) : fxFromFloat ties a ≠ .anyNan := by
  unfold fxFromFloat
  split <;> simp

theorem fxDiv_ne_anyNan (A B : Fx) : fxDiv A B ≠ .anyNan := by
  unfold fxDiv
  split <;> simp

theorem toRaw_ne_anyNan (M E : Nat) (a : F32) : toRaw M E a ≠ .anyNan := by
  unfold toRaw
  dsimp only
  split_ifs <;> simp

/-- Only MF.ADD, MF.SUB, MF.MUL and MF.DIV answer some NaN that nobody chooses (43_minifloat_arithmetic.md R198). -/
theorem mem_nanDrawers_of_responseOf_eq_anyNan {config : Config} {a b : Word} {i : Instr}
    (h : responseOf config a b i = .anyNan) : i ∈ nanDrawers := by
  contrapose! h
  cases i with
  | mfAddF24 | mfAddF20 | mfAddF16 | mfSubF24 | mfSubF20 | mfSubF16 | mfMulF24 | mfMulF20 | mfMulF16 | mfDivF24 | mfDivF20
  | mfDivF16 => exact absurd (by decide) h
  | fxFromraw | fxInt | fxFrac | fxFloor | fxCeil => exact withFx1_ne_anyNan fun _ => ok_ne_anyNan _
  | fxFromint | fxAdd | fxSub | fxMul | fxLt | fxLe | fxGt | fxGe | fxEq | fxNe =>
    exact withFx2_ne_anyNan fun _ _ => ok_ne_anyNan _
  | fxFromfloat => exact fxFromFloat_ne_anyNan _ _
  | fxDiv => exact withFx2_ne_anyNan fxDiv_ne_anyNan
  | mfFromrawF24 | mfFromrawF20 | mfFromrawF16 => exact withOperand_ne_anyNan fun _ => ok_ne_anyNan _
  | mfTorawF24 | mfTorawF20 | mfTorawF16 => exact toRaw_ne_anyNan _ _ _
  | fxZero | mfZeroF24 | mfZeroF20 | mfZeroF16 | mfFromf32F24 | mfFromf32F20 | mfFromf32F16 | mfNegF24 | mfNegF20 | mfNegF16
  | mfLtF24 | mfLtF20 | mfLtF16 | mfLeF24 | mfLeF20 | mfLeF16 | mfGtF24 | mfGtF20 | mfGtF16 | mfGeF24 | mfGeF20
  | mfGeF16 | mfEqF24 | mfEqF20 | mfEqF16 | mfNeF24 | mfNeF20 | mfNeF16 => exact ok_ne_anyNan _

/-- A byte that decodes is the byte of the operation it decodes to (30_encoding.md R62). -/
theorem eq_encode_of_decode {c : Byte} {i : Instr} (h : decode c = .ok i) : c = encode i := by
  have hall : ∀ c : Byte, ∀ j ∈ (decode c).toOption, c = encode j := by decide
  exact hall c i (by simp [h, Except.toOption])

/-! ### Two states that drive one response -/

/-- Every draw becomes a NaN: the bits of a quiet NaN fill the exponent field and leave a bit of the mantissa
(43_minifloat_arithmetic.md R198). -/
theorem isNan_nanOf (w : Word) : isNan (nanOf w) = true := by
  by_cases hw : isNan w = true
  · rw [nanOf_of_isNan w hw, hw]
  · rw [nanOf, if_neg hw, isNan_iff, ex, fr, BitVec.extractLsb'_or, BitVec.extractLsb'_or]
    have hex : w.extractLsb' 23 8 ||| (0x7FC00000#32).extractLsb' 23 8 = 255#8 := BitVec.or_allOnes
    have hfr : w.extractLsb' 0 23 ||| (0x7FC00000#32).extractLsb' 0 23 ≠ 0#23 := fun h0 =>
      absurd (BitVec.or_eq_zero_iff.1 h0).2 (by decide)
    exact ⟨by rw [hex]; rfl, fun h0 => hfr (BitVec.eq_of_toNat_eq h0)⟩

/-- One response, driven in two states, shows alike but for the two draws of some NaN. -/
theorem answer_sameResponse {P : Prop} (s₁ s₂ : State) (c₁ c₂ : Byte) {r : Response} (hP : r = .anyNan → P) :
    ∃ t₁ t₂, s₁.answer c₁ r = .next t₁ ∧ s₂.answer c₂ r = .next t₂ ∧ SameResponse P t₁ t₂ := by
  cases r with
  | ok y => exact ⟨_, _, rfl, rfl, rfl, rfl, fun _ => .inl rfl⟩
  | anyNan => exact ⟨_, _, rfl, rfl, rfl, rfl, fun _ => .inr ⟨hP rfl, isNan_nanOf _, isNan_nanOf _⟩⟩
  | fault c => exact ⟨_, _, rfl, rfl, rfl, rfl, fun herr => absurd herr (by simp)⟩

/-- The same operation, with the same operands and configuration, is answered alike from every state. -/
theorem exec_sameResponse (i : Instr) {s₁ s₂ : State} (ha : s₁.a = s₂.a) (hb : s₁.b = s₂.b)
    (hconfig : s₁.config = s₂.config) :
    ∃ t₁ t₂, exec i s₁ = .next t₁ ∧ exec i s₂ = .next t₂ ∧ SameResponse (i ∈ nanDrawers) t₁ t₂ := by
  rw [exec_eq, exec_eq, ha, hb, hconfig]
  exact answer_sameResponse s₁ s₂ _ _ mem_nanDrawers_of_responseOf_eq_anyNan

/-- Responses that agree still agree where more operations are allowed to draw. -/
theorem SameResponse.mono {P Q : Prop} {t u : State} (hPQ : P → Q) (h : SameResponse P t u) : SameResponse Q t u := by
  obtain ⟨herr, hcause, hy⟩ := h
  exact ⟨herr, hcause, fun h0 => (hy h0).imp_right fun ⟨hP, ht, hu⟩ => ⟨hPQ hP, ht, hu⟩⟩

/-- Settles O9: both states decode the same operation and execute it alike, or both answer ILLEGAL_OP. -/
theorem responseDependsOnRequestAlone : Obligations.ResponseDependsOnRequestAlone := by
  intro s₁ s₂ hcmd ha hb hconfig
  obtain ⟨i, hdec, hstep⟩ | ⟨e, hdec, hstep⟩ := step_cases s₁
  · obtain ⟨t₁, t₂, ht₁, ht₂, hsame⟩ := exec_sameResponse i ha hb hconfig
    refine ⟨t₁, t₂, hstep.trans ht₁, (step_of_decode (hcmd ▸ hdec)).trans ht₂, hsame.mono fun hi => ?_⟩
    rw [eq_encode_of_decode hdec]
    exact List.mem_map_of_mem hi
  · have hstep₂ : step s₂ = s₂.answer s₂.cmd (.fault .illegalOp) := step_of_decode_error (hcmd ▸ hdec)
    rw [hstep, hstep₂]
    exact answer_sameResponse s₁ s₂ _ _ nofun

end Sys2Proof.Machine
end

section
/-! # FX.FROMFLOAT of an exact 12.4 value

Where `val(a) * 16` is an integer there is nothing to round, so both tie rules give that integer, and a 12.4 word is
`trunc_16` of its own signed value (10_state.md R29; 40_fixed_point_12_4.md R104). -/

namespace Sys2Proof.Machine

/-- A whole quotient is its own rounding. -/
theorem roundQuotient_mul (ties : RoundTies) (k : Nat) {den : Nat} (hden : 0 < den) :
    roundQuotient ties (k * den) den = k := by
  simp [roundQuotient, Nat.mul_div_cancel k hden, hden]

/-- A whole quotient is its own rounding, whatever its sign. -/
theorem roundInt_mul (ties : RoundTies) (z : Int) {den : Nat} (hden : 0 < den) : roundInt ties (z * den) den = z := by
  have hsign : (z * (den : Int)).sign = z.sign := by
    rw [Int.sign_mul, Int.sign_eq_one_of_pos (Int.natCast_pos.2 hden), Int.mul_one]
  rw [roundInt, hsign, Int.natAbs_mul, Int.natAbs_natCast, roundQuotient_mul ties _ hden, Int.sign_mul_natAbs]

/-- A value of `n` sixteenths is `n * 2^149` sixteenths of a unit of 2^-149. -/
theorem valUnits_mul_of_realVal {f : F32} {n : Int} (h : realVal f = (n : ℚ) / 16) : valUnits f * 16 = n * 2 ^ 149 := by
  rw [realVal_eq, div_eq_div_iff (by norm_num) (by norm_num)] at h
  exact_mod_cast h

/-- A word is `trunc_16` of its signed value (10_state.md R29). -/
@[simp] theorem trunc16_toInt (A : Fx) : trunc16 A.toInt = A := BitVec.ofInt_toInt

/-- A finite operand is answered with its rounded sixteenths (40_fixed_point_12_4.md R104). -/
theorem fxFromFloat_of_isFinite (ties : RoundTies) {a : F32} (h : isFinite a = true) :
    fxFromFloat ties a = .ok (placeFx (trunc16 (roundInt ties (valUnits a * 16) (2 ^ 149)))) := by
  simp [fxFromFloat, h]

/-- The operation answers the word that its response carries. -/
theorem answersOk_of_responseOf {i : Instr} {s : State} {y : Word} (h : responseOf s.config s.a s.b i = .ok y) :
    AnswersOk i s y := by
  rw [AnswersOk, exec_eq, h]
  rfl

/-- Settles O19: the sixteenths of the value are the integer `sint(A)`, which both tie rules leave as it is. -/
theorem fxFromfloatOfExactValue : Obligations.FxFromfloatOfExactValue := by
  intro s A hfin hval
  have hunits : valUnits s.a * 16 = A.toInt * ((2 ^ 149 : Nat) : Int) := valUnits_mul_of_realVal hval
  have hround : roundInt s.config.fxRoundTies (valUnits s.a * 16) (2 ^ 149) = A.toInt := by
    rw [hunits, roundInt_mul _ _ (by positivity)]
  apply answersOk_of_responseOf
  calc responseOf s.config s.a s.b .fxFromfloat
      = .ok (placeFx (trunc16 (roundInt s.config.fxRoundTies (valUnits s.a * 16) (2 ^ 149)))) :=
        fxFromFloat_of_isFinite _ hfin
    _ = .ok (A.setWidth 32) := by rw [hround, trunc16_toInt, placeFx]

end Sys2Proof.Machine
end

section
/-! # Commands: their bytes, the reserved bytes and the ports that count

The byte of an operation decodes to it and to nothing else; every other byte falls in one of the three classes of
reserved byte (30_encoding.md R60 to R62, R66). The response to an operation is a function of the ports that its
signature reads, and a pseudo-instruction is one line (R63, R64, R82). -/

namespace Sys2Proof.Machine

/-! ### The bytes of the operations -/

/-- The table lists one byte for each operation, and the decoder reads it back (30_encoding.md R62). -/
@[simp] theorem decode_encode (i : Instr) : decode (encode i) = .ok i := by cases i <;> rfl

/-- A byte decodes to the operation that lists it and to no other (30_encoding.md R62). -/
theorem decode_eq_ok_iff (c : Byte) (i : Instr) : decode c = .ok i ↔ c = encode i := by
  refine ⟨eq_encode_of_decode, ?_⟩
  rintro rfl
  exact decode_encode i

/-- Settles O3: the decoder inverts the encoder, and the count runs through the 256 bytes. -/
theorem decodeIffEncode : Obligations.DecodeIffEncode :=
  ⟨decode_eq_ok_iff, by decide⟩

/-! ### The three classes of reserved byte -/

/-- An FX `op` has no format, so `fmt` other than `0b00` is reserved with it (30_encoding.md R66). -/
theorem decode_eq_fxWithFormat {c : Byte} {i : Instr} (hop : decodeFxOp (opField c).toNat = some i)
    (hfmt : fmtField c ≠ 0#2) : decode c = .error .fxWithFormat := by
  simp [decode, hop, hfmt]

/-- `fmt = 0b11` selects no format, so it is reserved with every MF `op` (30_encoding.md R61, R66). -/
theorem decode_eq_reservedFormat {c : Byte} {i : Instr} (hfx : decodeFxOp (opField c).toNat = none)
    (hop : decodeMfOp .f24 (opField c).toNat = some i) (hfmt : Format.ofCode (fmtField c) = none) :
    decode c = .error .reservedFormat := by
  simp [decode, hfx, hop, hfmt]

/-- An `op` of neither half of the table is reserved with every `fmt` (30_encoding.md R66). -/
theorem decode_eq_unassignedOp {c : Byte} (hfx : decodeFxOp (opField c).toNat = none)
    (hmf : ∀ f, decodeMfOp f (opField c).toNat = none) : decode c = .error .unassignedOp := by
  simp only [decode, hfx, hmf]
  cases Format.ofCode (fmtField c) <;> rfl

/-- Settles O4: eight bytes are those of the operations named, and three fall in the three reserved classes. -/
theorem sampleCommandWords : Obligations.SampleCommandWords :=
  ⟨decode_encode .fxZero, decode_encode .fxFrac, decode_encode .fxMul, decode_encode .fxGe, decode_encode .mfFromrawF20,
    decode_encode .mfTorawF16, decode_encode .mfMulF16, decode_encode .mfNeF20,
    decode_eq_fxWithFormat (i := .fxAdd) rfl (by decide), decode_eq_reservedFormat (i := .mfAddF24) rfl rfl rfl,
    decode_eq_unassignedOp rfl fun _ => rfl⟩

/-- The bytes that R66 lists as reserved are those that decode to no operation. -/
theorem reservedByte_iff (c : Byte) : ReservedByte c ↔ ∀ i, decode c ≠ .ok i := by
  have hall : ∀ c : Byte, ReservedByte c ↔ (decode c).toOption = none := by decide
  rw [hall c]
  cases decode c <;> simp [Except.toOption]

/-- Driving a fault leaves everything as it was but the response ports and the model's counter
(60_exceptions.md R251). -/
theorem faultedFrom_driveFault (s : State) (cmd : Byte) (c : Fault) : FaultedFrom s c.code (s.driveFault cmd c) :=
  ⟨_, rfl⟩

/-- Settles O2: a reserved byte is rejected; any other byte decodes, and a well-formed response to it has another
cause. -/
theorem reservedCommandsFault : Obligations.ReservedCommandsFault := by
  intro s
  rw [reservedByte_iff]
  constructor
  · intro hreserved
    obtain ⟨i, hdec, -⟩ | ⟨e, -, hstep⟩ := step_cases s
    · exact absurd hdec (hreserved i)
    · exact ⟨_, hstep, faultedFrom_driveFault s s.cmd .illegalOp⟩
  · intro hlegal
    obtain ⟨t, ht, hwf⟩ := everyStepGivesWellFormedResponse s
    have hcmd : t.cmd = s.cmd := (requestPortsAndConfigKept s t ht).1
    refine ⟨t, ht, ?_⟩
    obtain ⟨-, hcause, -⟩ | ⟨-, -, -, hillegal⟩ := hwf
    · rw [hcause]
      decide
    · rwa [Ne, hillegal, hcmd]

/-! ### The ports that an operation reads -/

/-- The response to an operation is a function of the ports that its signature reads (30_encoding.md R63, R64). -/
theorem responseOf_congr_readPorts (config : Config) (i : Instr) {a a' b b' : Word} (ha : i.signature.a ≠ none → a' = a)
    (hb : i.signature.b ≠ none → b' = b) : responseOf config a' b' i = responseOf config a b i := by
  cases i with
  | fxZero | mfZeroF24 | mfZeroF20 | mfZeroF16 => rfl
  | fxFromraw | fxFromfloat | fxInt | fxFrac | fxFloor | fxCeil | mfFromrawF24 | mfFromrawF20 | mfFromrawF16 | mfFromf32F24
  | mfFromf32F20 | mfFromf32F16 | mfTorawF24 | mfTorawF20 | mfTorawF16 | mfNegF24 | mfNegF20 | mfNegF16 =>
    cases ha nofun
    rfl
  | fxFromint | fxAdd | fxSub | fxMul | fxDiv | fxLt | fxLe | fxGt | fxGe | fxEq | fxNe | mfAddF24 | mfAddF20 | mfAddF16
  | mfSubF24 | mfSubF20 | mfSubF16 | mfMulF24 | mfMulF20 | mfMulF16 | mfDivF24 | mfDivF20 | mfDivF16 | mfLtF24 | mfLtF20
  | mfLtF16 | mfLeF24 | mfLeF20 | mfLeF16 | mfGtF24 | mfGtF20 | mfGtF16 | mfGeF24 | mfGeF20 | mfGeF16 | mfEqF24 | mfEqF20
  | mfEqF16 | mfNeF24 | mfNeF20 | mfNeF16 =>
    cases ha nofun
    cases hb nofun
    rfl

/-- Settles O11: both states drive one response. -/
theorem unreadPortsIgnored : Obligations.UnreadPortsIgnored := by
  intro i s a' b' ha hb
  have hresponse : responseOf s.config a' b' i = responseOf s.config s.a s.b i := responseOf_congr_readPorts _ i ha hb
  rw [exec_eq, exec_eq, State.present_config, State.present_a, State.present_b, hresponse]
  exact answer_sameResponse s _ _ _ mem_nanDrawers_of_responseOf_eq_anyNan

/-! ### Pseudo-instructions -/

/-- A line runs by the values of its sources, however they are written (30_encoding.md R80). -/
theorem line_congr (r : HostRun) (dest : Nat) (cmd : Byte) {a a' b b' : Source}
    (ha : sourceValue r.temps a = sourceValue r.temps a') (hb : sourceValue r.temps b = sourceValue r.temps b') :
    r.line ⟨dest, cmd, a, b⟩ = r.line ⟨dest, cmd, a', b'⟩ := by
  simp only [HostRun.line, ha, hb]

/-- Settles O59: the byte of the expansion is that of the table, and a source is read as the literal of its value. -/
theorem pseudoInstructionsExpand : Obligations.PseudoInstructionsExpand := by
  intro r t src v hsrc
  refine ⟨line_congr r t (encode .fxFromint) hsrc rfl, fun w hdest => ?_⟩
  have hcompound (cmd : Byte) : r.line ⟨t, cmd, .temp t, src⟩ = r.line ⟨t, cmd, .bits w, .bits v⟩ :=
    line_congr r t cmd hdest hsrc
  exact ⟨hcompound (encode .fxAdd), hcompound (encode .fxSub), hcompound (encode .fxMul), hcompound (encode .fxDiv)⟩

end Sys2Proof.Machine
end

section
/-! # The templates of the FX operations

An FX operation is its encoding, its operand checks and what it does with the words (40_fixed_point_12_4.md R100). Each
template is proved once from the response of the operation; what a request `Gives` is then read off the template. -/

namespace Sys2Proof.Machine

/-! ### From the response to the answer -/

/-- The operation answers as its response says. -/
theorem answersAs_responseOf (i : Instr) (s : State) : AnswersAs i s (responseOf s.config s.a s.b i) := by
  have hexec := exec_eq i s
  cases hr : responseOf s.config s.a s.b i with
  | ok y => exact answersOk_of_responseOf hr
  | anyNan => exact ⟨_, isNan_nanOf _, by rw [AnswersOk, hexec, hr]; rfl⟩
  | fault c => exact ⟨_, by rw [hexec, hr]; rfl, faultedFrom_driveFault s (encode i) c⟩

/-- The operation answers the fault that its response carries. -/
theorem answersFault_of_responseOf {i : Instr} {s : State} {c : Fault} (h : responseOf s.config s.a s.b i = .fault c) :
    AnswersFault i s c.code := by
  have hanswer := answersAs_responseOf i s
  rwa [h] at hanswer

/-- A request has one answer. -/
theorem Gives.unique {i : Instr} {s : State} {a b y y' : Word} (h : Gives i s a b y) (h' : Gives i s a b y') :
    y = y' := by
  unfold Gives AnswersOk at h h'
  exact congrArg State.y (Host.Outcome.next.inj (h.symm.trans h'))

/-! ### Ports above 16 bits -/

/-- An operand above its width is OPERAND_RANGE (30_encoding.md R64). -/
theorem withOperand_of_wide {Wt : Nat} {p : Word} (h : 2 ^ Wt ≤ p.toNat) (k : BitVec Wt → Response) :
    withOperand Wt p k = .fault .operandRange := by
  rw [withOperand_eq, if_neg (Nat.not_lt.2 h)]

/-- One operand above 16 bits is enough, whichever it is (40_fixed_point_12_4.md R100). -/
theorem withFx2_of_wide {a b : Word} (h : 2 ^ 16 ≤ a.toNat ∨ 2 ^ 16 ≤ b.toNat) (k : Fx → Fx → Response) :
    withFx2 a b k = .fault .operandRange := by
  rw [withFx2, withOperand_eq]
  split
  · next ha => exact withOperand_of_wide (h.resolve_left (Nat.not_le.2 ha)) _
  · rfl

/-! ### The templates -/

/-- The byte of an operation of the FX half decodes to it, and its `op` has no format (30_encoding.md R62, R66). -/
theorem fxEncoding_of_eq {cmd : Byte} {i : Instr} (hcmd : cmd = encode i)
    (hop : decodeFxOp (opField cmd).toNat = some i) : FxEncoding cmd i :=
  ⟨(decode_eq_ok_iff cmd i).2 hcmd, fun c hc hfmt => decode_eq_fxWithFormat (by rw [hc]; exact hop) hfmt⟩

/-- The template of an operation that reads one 16-bit port (40_fixed_point_12_4.md R100). -/
theorem fxUnary_of_responseOf {cmd : Byte} {i : Instr} {f : Fx → Word} (hcmd : cmd = encode i)
    (hop : decodeFxOp (opField cmd).toNat = some i)
    (hresponse : ∀ config a b, responseOf config a b i = withFx1 a fun A => .ok (f A)) : FxUnary cmd i f := by
  refine ⟨fxEncoding_of_eq hcmd hop, fun s => ⟨fun A ha => ?_, fun hwide => ?_⟩⟩
  · exact answersOk_of_responseOf (by rw [hresponse, ha, withFx1_setWidth])
  · exact answersFault_of_responseOf (c := .operandRange) (by rw [hresponse, withFx1, withOperand_of_wide hwide])

/-- The template of an operation that reads two 16-bit ports (40_fixed_point_12_4.md R100). -/
theorem fxBinary_of_responseOf {cmd : Byte} {i : Instr} {f : Fx → Fx → Response} (hcmd : cmd = encode i)
    (hop : decodeFxOp (opField cmd).toNat = some i)
    (hresponse : ∀ config a b, responseOf config a b i = withFx2 a b f) : FxBinary cmd i f := by
  refine ⟨fxEncoding_of_eq hcmd hop, fun s => ⟨fun A B ha hb => ?_, fun hwide => ?_⟩⟩
  · have hanswer := answersAs_responseOf i s
    rwa [hresponse, ha, hb, withFx2_setWidth] at hanswer
  · exact answersFault_of_responseOf (c := .operandRange) (by rw [hresponse, withFx2_of_wide hwide])

/-- The template speaks of the function alone, however it is written. -/
theorem FxUnary.congr {cmd : Byte} {i : Instr} {f g : Fx → Word} (h : FxUnary cmd i f) (hfg : ∀ A, f A = g A) :
    FxUnary cmd i g :=
  funext hfg ▸ h

theorem FxBinary.congr {cmd : Byte} {i : Instr} {f g : Fx → Fx → Response} (h : FxBinary cmd i f)
    (hfg : ∀ A B, f A B = g A B) : FxBinary cmd i g :=
  funext₂ hfg ▸ h

/-- The template's result, as the answer to a request; port `b` is not read. -/
theorem FxUnary.gives {cmd : Byte} {i : Instr} {f : Fx → Word} (h : FxUnary cmd i f) (s : State) (A : Fx) (b : Word) :
    Gives i s (A.setWidth 32) b (f A) := by
  obtain ⟨-, htemplate⟩ := h
  exact (htemplate _).1 A rfl

/-- The template's result where it is a word, as the answer to a request. -/
theorem FxBinary.gives {cmd : Byte} {i : Instr} {f : Fx → Fx → Response} (h : FxBinary cmd i f) (s : State) {A B : Fx}
    {y : Word} (hy : f A B = .ok y) : Gives i s (A.setWidth 32) (B.setWidth 32) y := by
  obtain ⟨-, htemplate⟩ := h
  have hanswer := (htemplate (s.present (encode i) (A.setWidth 32) (B.setWidth 32))).1 A B rfl rfl
  rwa [hy] at hanswer

/-! ### The operations, by the model's functions on words -/

theorem fxUnary_fxInt : FxUnary 0x04#8 .fxInt fun A => placeFx (fxIntPart A) :=
  fxUnary_of_responseOf rfl rfl fun _ _ _ => rfl

theorem fxUnary_fxFrac : FxUnary 0x05#8 .fxFrac fun A => placeFx (fxFracPart A) :=
  fxUnary_of_responseOf rfl rfl fun _ _ _ => rfl

theorem fxUnary_fxFloor : FxUnary 0x06#8 .fxFloor fun A => placeFx (fxFloor A) :=
  fxUnary_of_responseOf rfl rfl fun _ _ _ => rfl

theorem fxUnary_fxCeil : FxUnary 0x07#8 .fxCeil fun A => placeFx (fxCeil A) :=
  fxUnary_of_responseOf rfl rfl fun _ _ _ => rfl

theorem fxBinary_fxFromint : FxBinary 0x02#8 .fxFromint fun A B => .ok (placeFx (fxFromInt A B)) :=
  fxBinary_of_responseOf rfl rfl fun _ _ _ => rfl

theorem fxBinary_fxAdd : FxBinary 0x08#8 .fxAdd fun A B => .ok (placeFx (fxAdd A B)) :=
  fxBinary_of_responseOf rfl rfl fun _ _ _ => rfl

theorem fxBinary_fxSub : FxBinary 0x09#8 .fxSub fun A B => .ok (placeFx (fxSub A B)) :=
  fxBinary_of_responseOf rfl rfl fun _ _ _ => rfl

theorem fxBinary_fxMul : FxBinary 0x0A#8 .fxMul fun A B => .ok (placeFx (fxMul A B)) :=
  fxBinary_of_responseOf rfl rfl fun _ _ _ => rfl

theorem fxBinary_fxDiv : FxBinary 0x0B#8 .fxDiv fxDiv :=
  fxBinary_of_responseOf rfl rfl fun _ _ _ => rfl

/-- Settles O15: FX.FROMRAW puts its operand on `y`. -/
theorem fxFromrawIsIdentity : Obligations.FxFromrawIsIdentity :=
  fxUnary_of_responseOf rfl rfl fun _ _ _ => rfl

end Sys2Proof.Machine
end

section
/-! # The fields of a 12.4 word

A word is its integer part and its fraction: `toInt = 16 * toInt (integer part) + fraction`, with the integer part the
quotient by 16 rounded down. The masks, FX.INT, FX.FRAC, FX.FLOOR, FX.CEIL and FX.FROMINT are said in these numbers
once, and the laws between them are linear arithmetic (40_fixed_point_12_4.md R103, R105 to R108, R120 to R122). -/

namespace Sys2Proof.Machine

/-! ### The accessors as numbers -/

theorem toNat_fxFracPart (A : Fx) : (fxFracPart A).toNat = A.toNat % 16 := by
  rw [fxFracPart, fracMask, BitVec.toNat_and]
  exact Nat.and_two_pow_sub_one_eq_mod A.toNat 4

theorem toNat_fxFloor (A : Fx) : (fxFloor A).toNat = A.toNat / 16 * 16 := by
  have hshift : fxFloor A = A >>> 4 <<< 4 := by rw [BitVec.shiftLeft_ushiftRight]; rfl
  have hlt := A.isLt
  rw [hshift, BitVec.toNat_shiftLeft, BitVec.toNat_ushiftRight, Nat.shiftRight_eq_div_pow, Nat.shiftLeft_eq,
    Nat.mod_eq_of_lt (by omega)]

/-- FX.INT is the floor of the value (40_fixed_point_12_4.md R105). -/
theorem toInt_fxIntPart (A : Fx) : (fxIntPart A).toInt = A.toInt / 16 := by
  have hlt := A.isLt
  rw [fxIntPart, BitVec.toInt_signExtend_of_le (by omega), BitVec.toInt_eq_toNat_cond, BitVec.toInt_eq_toNat_cond,
    BitVec.extractLsb'_toNat, Nat.shiftRight_eq_div_pow]
  omega

/-- A word is its floor and its fraction (40_fixed_point_12_4.md R121). -/
theorem toInt_fxFloor_add_fxFracPart (A : Fx) : (fxFloor A).toInt + (fxFracPart A).toNat = A.toInt := by
  have hlt := A.isLt
  rw [BitVec.toInt_eq_toNat_cond, BitVec.toInt_eq_toNat_cond, toNat_fxFloor, toNat_fxFracPart]
  omega

theorem toInt_fxFloor (A : Fx) : (fxFloor A).toInt = 16 * (A.toInt / 16) := by
  have hlt := A.isLt
  rw [BitVec.toInt_eq_toNat_cond, BitVec.toInt_eq_toNat_cond, toNat_fxFloor]
  omega

/-- The sum of FX.CEIL wraps to 16 bits (40_fixed_point_12_4.md R108). -/
theorem fxCeil_eq_fxFloor (A : Fx) : fxCeil A = fxFloor (A + 15#16) := by
  rw [fxCeil, fxFloor, trunc16, BitVec.ofInt_add, sint, BitVec.ofInt_toInt]
  rfl

/-- Up to 2047.0 the sum of FX.CEIL does not wrap (40_fixed_point_12_4.md R108). -/
theorem toInt_add_fifteen {A : Fx} (h : A.toInt ≤ 0x7FF0) : (A + 15#16).toInt = A.toInt + 15 := by
  have hlt := A.isLt
  rw [BitVec.toInt_eq_toNat_cond] at h ⊢
  rw [BitVec.toInt_eq_toNat_cond, BitVec.toNat_add, BitVec.toNat_ofNat]
  omega

/-- FX.CEIL is the next multiple of 1.0, up to 2047.0 (40_fixed_point_12_4.md R108). -/
theorem toInt_fxCeil {A : Fx} (h : A.toInt ≤ 0x7FF0) : (fxCeil A).toInt = 16 * ((A.toInt + 15) / 16) := by
  rw [fxCeil_eq_fxFloor, toInt_fxFloor, toInt_add_fifteen h]

/-- Above 2047.0 the sum wraps and FX.CEIL is -2048.0 (40_fixed_point_12_4.md R108). -/
theorem fxCeil_of_gt {A : Fx} (h : 0x7FF0 < A.toInt) : fxCeil A = 0x8000#16 := by
  have hlt := A.isLt
  rw [BitVec.toInt_eq_toNat_cond] at h
  rw [fxCeil_eq_fxFloor]
  apply BitVec.eq_of_toNat_eq
  rw [toNat_fxFloor, BitVec.toNat_add, BitVec.toNat_ofNat, BitVec.toNat_ofNat]
  omega

/-- The operand is not above FX.CEIL exactly where the sum does not wrap (40_fixed_point_12_4.md R122). -/
theorem toInt_le_toInt_fxCeil_iff (A : Fx) : A.toInt ≤ (fxCeil A).toInt ↔ A.toInt ≤ 0x7FF0 := by
  rcases le_or_gt A.toInt 0x7FF0 with h | h
  · rw [toInt_fxCeil h]
    omega
  · have hmin : (fxCeil A).toInt = -32768 := by rw [fxCeil_of_gt h]; rfl
    omega

/-- The fraction is 0 exactly for the multiples of 1.0 (40_fixed_point_12_4.md R122). -/
theorem fxFracPart_eq_zero_iff (A : Fx) : fxFracPart A = 0#16 ↔ A.toInt % 16 = 0 := by
  have hfrac := toInt_fxFloor_add_fxFracPart A
  rw [toInt_fxFloor] at hfrac
  rw [← BitVec.toNat_inj, BitVec.toNat_ofNat]
  omega

theorem fxFloor_eq_self_iff (A : Fx) : fxFloor A = A ↔ A.toInt % 16 = 0 := by
  rw [← BitVec.toInt_inj, toInt_fxFloor]
  omega

/-- FX.CEIL keeps the multiples of 1.0, the greatest of which is 2047.0 (40_fixed_point_12_4.md R122). -/
theorem fxCeil_eq_self {A : Fx} (h : A.toInt % 16 = 0) : fxCeil A = A := by
  have hmax : A.toInt < 2 ^ 15 := A.toInt_lt
  apply BitVec.eq_of_toInt_eq
  rw [toInt_fxCeil (by omega)]
  omega

theorem placeFx_eq_zero_iff (v : Fx) : placeFx v = 0#32 ↔ v = 0#16 := by
  rw [placeFx, ← BitVec.toNat_inj, ← BitVec.toNat_inj, BitVec.toNat_setWidth_of_le (by omega)]
  rfl

/-! ### Packing the fields -/

/-- FX.FROMINT puts the low 12 bits of the integer part above the low 4 bits of the fraction
(40_fixed_point_12_4.md R103). -/
theorem fxFromInt_eq_append (I F : BitVec 16) : fxFromInt I F = I.extractLsb' 0 12 ++ F.extractLsb' 0 4 := by
  have hshift : trunc16 (sint I * 16) = I <<< 4 := by
    rw [trunc16, BitVec.ofInt_mul, sint, BitVec.ofInt_toInt, BitVec.shiftLeft_eq_mul_twoPow]
    rfl
  have hhigh : (fxFloor (I <<< 4)).toNat = (I.extractLsb' 0 12).toNat <<< 4 := by
    rw [toNat_fxFloor, BitVec.toNat_shiftLeft, BitVec.extractLsb'_toNat, Nat.shiftRight_zero, Nat.shiftLeft_eq,
      Nat.shiftLeft_eq]
    omega
  have hlow : (fxFracPart F).toNat = (F.extractLsb' 0 4).toNat := by
    rw [toNat_fxFracPart, BitVec.extractLsb'_toNat, Nat.shiftRight_zero]
  apply BitVec.eq_of_toNat_eq
  rw [BitVec.toNat_append, ← hhigh, ← hlow, ← BitVec.toNat_or, ← hshift]
  rfl

/-- FX.INT takes the packed integer part out, sign-extended (40_fixed_point_12_4.md R120). -/
theorem fxIntPart_fxFromInt (I F : BitVec 16) : fxIntPart (fxFromInt I F) = (I.extractLsb' 0 12).signExtend 16 := by
  rw [fxFromInt_eq_append, fxIntPart, BitVec.extractLsb'_append_eq_left]

/-- The fraction is the low field of the word (40_fixed_point_12_4.md R106). -/
theorem extractLsb'_fxFracPart (A : Fx) : (fxFracPart A).extractLsb' 0 4 = A.extractLsb' 0 4 := by
  apply BitVec.eq_of_toNat_eq
  simp only [BitVec.extractLsb'_toNat, Nat.shiftRight_zero, toNat_fxFracPart]
  omega

/-- FX.FRAC takes the packed fraction out (40_fixed_point_12_4.md R120). -/
theorem fxFracPart_fxFromInt (I F : BitVec 16) : fxFracPart (fxFromInt I F) = fxFracPart F := by
  have hlow : (fxFromInt I F).extractLsb' 0 4 = F.extractLsb' 0 4 := by
    rw [fxFromInt_eq_append, BitVec.extractLsb'_append_eq_right]
  apply BitVec.eq_of_toNat_eq
  rw [toNat_fxFracPart, toNat_fxFracPart]
  simpa [BitVec.extractLsb'_toNat] using congrArg BitVec.toNat hlow

/-- A 12-bit integer is the sign-extension of its low 12 bits (40_fixed_point_12_4.md R120). -/
theorem signExtend_ofInt_of_bounds {i : Int} (hlow : -2048 ≤ i) (hhigh : i ≤ 2047) :
    ((BitVec.ofInt 16 i).extractLsb' 0 12).signExtend 16 = BitVec.ofInt 16 i := by
  apply BitVec.eq_of_toInt_eq
  rw [BitVec.toInt_signExtend_of_le (by omega), BitVec.toInt_eq_toNat_cond, BitVec.extractLsb'_toNat,
    Nat.shiftRight_zero, BitVec.toNat_ofInt, BitVec.toInt_ofInt, Int.bmod_def]
  omega

/-- The low 12 bits of the integer part are the high field of the word (40_fixed_point_12_4.md R105). -/
theorem extractLsb'_fxIntPart (A : Fx) : (fxIntPart A).extractLsb' 0 12 = A.extractLsb' 4 12 := by
  ext i hi
  simp [fxIntPart, BitVec.getElem_signExtend, hi, show i < 16 by omega]

/-- The packed fields are those of the word (40_fixed_point_12_4.md R121). -/
theorem fxFromInt_fxIntPart_fxFracPart (A : Fx) : fxFromInt (fxIntPart A) (fxFracPart A) = A := by
  rw [fxFromInt_eq_append, extractLsb'_fxIntPart, extractLsb'_fxFracPart,
    BitVec.extractLsb'_append_extractLsb'_eq_extractLsb' (by omega), BitVec.extractLsb'_eq_self]

/-- Two fields side by side are the higher one, shifted, or the lower one. -/
theorem append_eq_shiftLeft_or (x : BitVec 12) (y : BitVec 4) : x ++ y = x.setWidth 16 <<< 4 ||| y.setWidth 16 := by
  rw [BitVec.append_def, BitVec.shiftLeftZeroExtend_eq]
  rfl

/-- FX.FLOOR packs the integer part alone (40_fixed_point_12_4.md R121). -/
theorem fxFromInt_fxIntPart_zero (A : Fx) : fxFromInt (fxIntPart A) 0#16 = fxFloor A := by
  apply BitVec.eq_of_toNat_eq
  rw [fxFromInt_eq_append, extractLsb'_fxIntPart, BitVec.toNat_append, toNat_fxFloor, BitVec.extractLsb'_toNat,
    Nat.shiftRight_eq_div_pow, Nat.shiftLeft_eq, Nat.mod_eq_of_lt (by omega)]
  exact Nat.or_zero _

/-! ### The statements -/

/-- Settles O16, by the two fields of FX.FROMINT. -/
theorem fxFromintPacksFields : Obligations.FxFromintPacksFields :=
  fxBinary_fxFromint.congr fun I F => by rw [placeFx, fxFromInt_eq_append]

/-- Settles O20: FX.INT is the quotient by 16 rounded down, and `trunc_16` of its own value. -/
theorem fxIntIsFloor : Obligations.FxIntIsFloor :=
  fxUnary_fxInt.congr fun A => by
    rw [Int.fdiv_eq_ediv_of_nonneg _ (by omega), ← toInt_fxIntPart, BitVec.ofInt_toInt, placeFx]

/-- Settles O21: masking with 15 is the remainder by 16. -/
theorem fxFracIsLowFourBits : Obligations.FxFracIsLowFourBits :=
  fxUnary_fxFrac.congr fun A => by rw [placeFx, ← BitVec.ofNat_toNat, toNat_fxFracPart]

/-- Settles O22: the floor is `16 * (sint(A) / 16)`. -/
theorem fxFloorIsLargestBelow : Obligations.FxFloorIsLargestBelow := by
  refine ⟨fxUnary_fxFloor, fun A => ?_⟩
  have hfloor : (A &&& 0xFFF0#16).toInt = 16 * (A.toInt / 16) := toInt_fxFloor A
  rw [hfloor]
  exact ⟨Int.dvd_mul_right _ _, by omega, by omega⟩

/-- Settles O23: up to 2047.0 the sum does not wrap, above it the result is -2048.0. -/
theorem fxCeilIsSmallestAbove : Obligations.FxCeilIsSmallestAbove := by
  have hceil (A : Fx) : (A + 15#16) &&& 0xFFF0#16 = fxCeil A := (fxCeil_eq_fxFloor A).symm
  refine ⟨fxUnary_fxCeil.congr fun A => by rw [hceil, placeFx], fun A => ?_⟩
  rw [hceil]
  split
  · next hle =>
    rw [toInt_fxCeil hle]
    exact ⟨Int.dvd_mul_right _ _, by omega, by omega⟩
  · next hgt => exact fxCeil_of_gt (not_le.1 hgt)

/-- FX.FROMINT of a fraction that fits its 4 bits, as the host writes it (40_fixed_point_12_4.md R103). -/
theorem gives_fxFromint (s : State) (I : Fx) {f : Nat} (hf : f ≤ 15) :
    Gives .fxFromint s (I.setWidth 32) (BitVec.ofNat 32 f) (placeFx (fxFromInt I (BitVec.ofNat 16 f))) := by
  have hport : BitVec.ofNat 32 f = (BitVec.ofNat 16 f).setWidth 32 := by
    rw [← BitVec.ofNat_toNat, BitVec.toNat_ofNat, Nat.mod_eq_of_lt (by omega)]
  rw [hport]
  exact fxBinary_fxFromint.gives s rfl

/-- FX.INT of a packed word, whatever the fraction (40_fixed_point_12_4.md R120). -/
theorem gives_fxInt_fxFromInt (s : State) (I F : BitVec 16) (b : Word) :
    Gives .fxInt s (placeFx (fxFromInt I F)) b (((I.extractLsb' 0 12).signExtend 16).setWidth 32) := by
  rw [← fxIntPart_fxFromInt I F]
  exact fxUnary_fxInt.gives s _ b

/-- FX.FRAC of a packed word, whatever the integer part (40_fixed_point_12_4.md R120). -/
theorem gives_fxFrac_fxFromInt (s : State) (I : BitVec 16) {f : Nat} (hf : f ≤ 15) (b : Word) :
    Gives .fxFrac s (placeFx (fxFromInt I (BitVec.ofNat 16 f))) b (BitVec.ofNat 32 f) := by
  have hfrac : placeFx (fxFracPart (fxFromInt I (BitVec.ofNat 16 f))) = BitVec.ofNat 32 f := by
    rw [fxFracPart_fxFromInt, placeFx, ← BitVec.ofNat_toNat, toNat_fxFracPart, BitVec.toNat_ofNat,
      Nat.mod_eq_of_lt (by omega), Nat.mod_eq_of_lt (by omega)]
  rw [← hfrac]
  exact fxUnary_fxFrac.gives s _ b

/-- Settles O28: the fields that FX.FROMINT packs are those that FX.INT and FX.FRAC take out. -/
theorem fxConstructionRoundTrip : Obligations.FxConstructionRoundTrip := by
  constructor
  · intro s i f hlow hhigh hf
    refine ⟨_, fun b => ⟨gives_fxFromint s _ hf, ?_, gives_fxFrac_fxFromInt s _ hf b⟩⟩
    have hint := gives_fxInt_fxFromInt s (BitVec.ofInt 16 i) (BitVec.ofNat 16 f) b
    rwa [signExtend_ofInt_of_bounds hlow hhigh] at hint
  · intro s I f hf
    exact ⟨_, fun b => ⟨gives_fxFromint s I hf, gives_fxInt_fxFromInt s I _ b⟩⟩

/-- Settles O29, with the fields that FX.INT and FX.FRAC answer. -/
theorem fxDecomposition : Obligations.FxDecomposition := by
  intro s A b
  have hfields : A = ((fxIntPart A).extractLsb' 0 12).setWidth 16 <<< 4 |||
      ((fxFracPart A).extractLsb' 0 4).setWidth 16 := by
    rw [← append_eq_shiftLeft_or, ← fxFromInt_eq_append, fxFromInt_fxIntPart_fxFracPart]
  have hvalue : A.toInt = 16 * (fxIntPart A).toInt + (fxFracPart A).toNat := by
    rw [toInt_fxIntPart, ← toInt_fxFloor, toInt_fxFloor_add_fxFracPart]
  have hfromint : Gives .fxFromint s ((fxIntPart A).setWidth 32) 0#32 (placeFx (fxFromInt (fxIntPart A) 0#16)) :=
    fxBinary_fxFromint.gives s (B := 0#16) rfl
  rw [fxFromInt_fxIntPart_zero] at hfromint
  exact ⟨_, _, _, fxUnary_fxInt.gives s A b, fxUnary_fxFrac.gives s A b, hfields, hvalue, fxUnary_fxFloor.gives s A b,
    hfromint⟩

/-- Settles O30: floor, ceiling and fraction all say whether the operand is a multiple of 1.0. -/
theorem fxFloorCeilLaw : Obligations.FxFloorCeilLaw := by
  intro s A b
  have hfloor : (fxFloor A).toInt ≤ A.toInt := by
    rw [toInt_fxFloor]
    omega
  have hmultiple : fxFloor A = A ∧ fxCeil A = A ↔ placeFx (fxFracPart A) = 0#32 := by
    rw [placeFx_eq_zero_iff, fxFracPart_eq_zero_iff, fxFloor_eq_self_iff]
    exact and_iff_left_of_imp fxCeil_eq_self
  exact ⟨_, _, _, fxUnary_fxFloor.gives s A b, fxUnary_fxCeil.gives s A b, fxUnary_fxFrac.gives s A b, hfloor,
    toInt_le_toInt_fxCeil_iff A, hmultiple⟩

end Sys2Proof.Machine
end

section
/-! # FX arithmetic and comparison

Sums, products and quotients are exact integers put to 16 bits; the comparisons are those of the signed values
(40_fixed_point_12_4.md R109 to R118, R123). -/

namespace Sys2Proof.Machine

/-! ### Arithmetic on words -/

theorem fxAdd_eq (A B : Fx) : fxAdd A B = A + B := by
  rw [fxAdd, trunc16, sint, sint, BitVec.ofInt_add, BitVec.ofInt_toInt, BitVec.ofInt_toInt]

theorem fxSub_eq (A B : Fx) : fxSub A B = A - B := by
  rw [fxSub, trunc16, sint, sint, Int.sub_eq_add_neg, BitVec.ofInt_add, BitVec.ofInt_neg, BitVec.ofInt_toInt,
    BitVec.ofInt_toInt, BitVec.sub_eq_add_neg]

theorem fxMul_eq (A B : Fx) : fxMul A B = BitVec.ofInt 16 ((A.toInt * B.toInt).tdiv 16) := by
  rw [fxMul, tdiv_eq, trunc16, sint, sint]

theorem fxMul_comm (A B : Fx) : fxMul A B = fxMul B A := by
  rw [fxMul, fxMul, Int.mul_comm]

/-- 1.0 is the word 0x0010 (40_fixed_point_12_4.md R111). -/
theorem fxMul_one (A : Fx) : fxMul A 0x10#16 = A := by
  have hone : (0x10#16 : Fx).toInt = 16 := rfl
  rw [fxMul_eq, hone, Int.mul_tdiv_cancel _ (by omega), BitVec.ofInt_toInt]

theorem fxDiv_eq (A B : Fx) :
    fxDiv A B = if B = 0#16 then .fault .divByZero
      else .ok ((BitVec.ofInt 16 ((A.toInt * 16).tdiv B.toInt)).setWidth 32) := by
  have hzero : sint B = 0 ↔ B = 0#16 := by rw [sint, ← BitVec.toInt_inj, BitVec.toInt_zero]
  simp only [fxDiv, hzero, tdiv_eq, trunc16, placeFx]
  rfl

/-- Dividing by 1.0, the word 0x0010, gives the dividend (40_fixed_point_12_4.md R112). -/
theorem fxDiv_one (A : Fx) : fxDiv A 0x10#16 = .ok (A.setWidth 32) := by
  have hone : (0x10#16 : Fx).toInt = 16 := rfl
  rw [fxDiv_eq, if_neg (by decide), hone, Int.mul_tdiv_cancel _ (by omega), BitVec.ofInt_toInt]

/-- Settles O24: `trunc_16` of a sum of signed values is the sum of the words. -/
theorem fxAddSubWrap : Obligations.FxAddSubWrap :=
  ⟨fxBinary_fxAdd.congr fun A B => by rw [fxAdd_eq, placeFx],
    fxBinary_fxSub.congr fun A B => by rw [fxSub_eq, placeFx]⟩

/-- Settles O14: FX.ZERO reads no port, and 0 is the identity of the wrapping sum. -/
theorem fxZeroAnswersZero : Obligations.FxZeroAnswersZero := by
  refine ⟨fxEncoding_of_eq rfl rfl, fun s => answersOk_of_responseOf rfl, fun s A => ⟨?_, ?_⟩⟩
  · exact fxAddSubWrap.1.gives s (B := 0#16) (by rw [BitVec.add_zero])
  · exact fxAddSubWrap.1.gives s (A := 0#16) (by rw [BitVec.zero_add])

/-- Settles O25: the product commutes because that of the integers does. -/
theorem fxMulTruncates : Obligations.FxMulTruncates := by
  refine ⟨fxBinary_fxMul.congr fun A B => by rw [fxMul_eq, placeFx], fun s A B y hy => ?_, fun s A => ?_⟩
  · have hproduct : y = placeFx (fxMul A B) := hy.unique (fxBinary_fxMul.gives s rfl)
    exact fxBinary_fxMul.gives s (by rw [hproduct, fxMul_comm])
  · exact fxBinary_fxMul.gives s (B := 0x10#16) (by rw [fxMul_one, placeFx])

/-- Settles O26: a word is 0 exactly where its signed value is, and only that divisor faults. -/
theorem fxDivTruncates : Obligations.FxDivTruncates :=
  ⟨fxBinary_fxDiv.congr fxDiv_eq, fun s A => fxBinary_fxDiv.gives s (B := 0x10#16) (fxDiv_one A)⟩

/-! ### The comparisons -/

/-- Settles O27: the comparisons of `sint` are the library's signed comparisons, and FX.NE is read as the negation of
equality. -/
theorem fxComparisonsSigned : Obligations.FxComparisonsSigned := by
  have hne : FxBinary 0x15#8 .fxNe fun A B => .ok (placeBool (fxNe A B)) :=
    fxBinary_of_responseOf rfl rfl fun _ _ _ => rfl
  have hnot (A B : Fx) : fxNe A B = decide (A ≠ B) := by rw [fxNe, bne, decide_not, beq_eq_decide]
  exact ⟨fxBinary_of_responseOf rfl rfl fun _ _ _ => rfl, fxBinary_of_responseOf rfl rfl fun _ _ _ => rfl,
    fxBinary_of_responseOf rfl rfl fun _ _ _ => rfl, fxBinary_of_responseOf rfl rfl fun _ _ _ => rfl,
    fxBinary_of_responseOf rfl rfl fun _ _ _ => rfl, hne.congr fun A B => by rw [hnot]; rfl⟩

/-- A Boolean on `y` is 1 exactly where it is true (30_encoding.md R65). -/
theorem bit_eq_one_iff (p : Bool) : bit p = 1#32 ↔ p = true := by cases p <;> decide

/-- FX.LT answers 1 exactly where the signed value is less (40_fixed_point_12_4.md R113). -/
theorem gives_fxLt_one_iff (s : State) (A B : Fx) :
    Gives .fxLt s (A.setWidth 32) (B.setWidth 32) 1#32 ↔ A.toInt < B.toInt := by
  have hlt : Gives .fxLt s (A.setWidth 32) (B.setWidth 32) (bit (A.slt B)) := fxComparisonsSigned.1.gives s rfl
  rw [← BitVec.slt_iff_toInt_lt, ← bit_eq_one_iff]
  exact ⟨fun h => hlt.unique h, fun h => h ▸ hlt⟩

/-- Settles O31: the signed values are totally ordered, and a word is known by its signed value. -/
theorem fxOrderIsTotal : Obligations.FxOrderIsTotal := by
  obtain ⟨hlt, hle, hgt, hge, heq, hne⟩ := fxComparisonsSigned
  constructor
  · intro s A B
    have hleClosure : A.sle B = (A.slt B || decide (A = B)) := by rw [BitVec.sle_eq_slt_or_eq, beq_eq_decide]
    have hgeClosure : B.sle A = (B.slt A || decide (A = B)) := by
      rw [BitVec.sle_eq_slt_or_eq, beq_eq_decide, decide_eq_decide.2 eq_comm]
    have htrichotomy : (A.slt B = true ∧ decide (A = B) = false ∧ B.slt A = false) ∨
        (A.slt B = false ∧ decide (A = B) = true ∧ B.slt A = false) ∨
        (A.slt B = false ∧ decide (A = B) = false ∧ B.slt A = true) := by
      simp only [decide_eq_true_eq, ← Bool.not_eq_true, BitVec.slt_iff_toInt_lt,
        ← BitVec.toInt_inj]
      omega
    exact ⟨A.slt B, decide (A = B), B.slt A, hlt.gives s rfl, heq.gives s rfl, hgt.gives s rfl, htrichotomy,
      decide_eq_true_iff, BitVec.slt_iff_toInt_lt, hlt.gives s rfl, hle.gives s (by rw [hleClosure]),
      hge.gives s (by rw [hgeClosure]), hne.gives s (by rw [decide_not])⟩
  · intro s A B C hAB hBC
    rw [gives_fxLt_one_iff] at hAB hBC ⊢
    exact hAB.trans hBC

end Sys2Proof.Machine
end

section
/-! # FX.FROMFLOAT rounds to nearest

The exact sixteenths of the operand are a quotient of integers, and the rounded quotient is within half of it; at a tie
it is the even one of the two neighbours or the one of larger magnitude. The sign plays no part, since both rules are
symmetric in it (40_fixed_point_12_4.md R104). -/

namespace Sys2Proof.Machine

/-! ### The rounded quotient of naturals -/

/-- The rounded quotient is within half of the quotient. -/
theorem abs_div_sub_roundQuotient_le (ties : RoundTies) (num : Nat) {den : Nat} (hden : 0 < den) :
    |(num : ℚ) / den - roundQuotient ties num den| ≤ 1 / 2 := by
  obtain ⟨hlow, hhigh, -⟩ := roundQuotient_spec ties num den hden
  have hpos : (0 : ℚ) < den := by exact_mod_cast hden
  have hlow' : (2 : ℚ) * num ≤ 2 * (roundQuotient ties num den * den) + den := by exact_mod_cast hlow
  have hhigh' : (2 : ℚ) * (roundQuotient ties num den * den) ≤ 2 * num + den := by exact_mod_cast hhigh
  rw [abs_le]
  constructor
  · rw [le_sub_iff_add_le, le_div_iff₀ hpos]
    linarith
  · rw [sub_le_iff_le_add, div_le_iff₀ hpos]
    linarith

/-- A quotient half-way between two integers leaves half the divisor: twice the dividend is the divisor, modulo twice
the divisor. -/
theorem twice_mod_eq_of_tie {num den k : Nat} (hden : 0 < den)
    (h : 2 * num = 2 * (k * den) + den ∨ 2 * num + den = 2 * (k * den)) : 2 * (num % den) = den := by
  have hodd : ∃ m, 2 * num = den + 2 * den * m := by
    rcases h with habove | hbelow
    · exact ⟨k, by rw [habove]; ring⟩
    · cases k with
      | zero => omega
      | succ m => exact ⟨m, by rw [Nat.succ_mul] at hbelow; linarith⟩
  obtain ⟨m, hm⟩ := hodd
  rw [← Nat.mul_mod_mul_left, hm, Nat.add_mul_mod_self_left, Nat.mod_eq_of_lt (by omega)]

/-- Half away from the quotient is half-way between two integers. -/
theorem twice_mod_eq_of_abs_eq_half {ties : RoundTies} {num den : Nat} (hden : 0 < den)
    (h : |(num : ℚ) / den - roundQuotient ties num den| = 1 / 2) : 2 * (num % den) = den := by
  have hne : (den : ℚ) ≠ 0 := by exact_mod_cast hden.ne'
  apply twice_mod_eq_of_tie (k := roundQuotient ties num den) hden
  rcases (abs_eq (by norm_num)).1 h with habove | hbelow
  · left
    field_simp at habove
    have hnum : (2 : ℚ) * num = 2 * (roundQuotient ties num den * den) + den := by linarith
    exact_mod_cast hnum
  · right
    field_simp at hbelow
    have hnum : (2 : ℚ) * num + den = 2 * (roundQuotient ties num den * den) := by linarith
    exact_mod_cast hnum

/-- At a tie the even rule gives the even neighbour. -/
theorem even_roundQuotient_of_tie {num den : Nat} (hden : 0 < den) (h : 2 * (num % den) = den) :
    Even (roundQuotient .even num den) := by
  obtain ⟨-, -, htie⟩ := roundQuotient_spec .even num den hden
  exact Nat.even_iff.2 (htie h)

/-- At a tie the away rule gives the neighbour above the quotient. -/
theorem div_lt_roundQuotient_of_tie {num den : Nat} (hden : 0 < den) (h : 2 * (num % den) = den) :
    (num : ℚ) / den < roundQuotient .away num den := by
  have hpos : (0 : ℚ) < den := by exact_mod_cast hden
  obtain ⟨-, -, htie⟩ := roundQuotient_spec .away num den hden
  rw [htie h, div_lt_iff₀ hpos]
  exact_mod_cast (Nat.lt_mul_div_succ num hden).trans_eq (Nat.mul_comm _ _)

/-! ### The rounded quotient of an integer: the sign plays no part -/

theorem roundInt_natCast (ties : RoundTies) (num : Nat) {den : Nat} (hden : 0 < den) :
    roundInt ties num den = roundQuotient ties num den := by
  rcases num.eq_zero_or_pos with rfl | hpos
  · have hzero : roundQuotient ties 0 den = 0 := by simpa using roundQuotient_mul ties 0 hden
    simp [roundInt, hzero]
  · rw [roundInt, Int.natAbs_natCast, Int.sign_eq_one_of_pos (Int.natCast_pos.2 hpos), Int.one_mul]

@[simp] theorem roundInt_neg (ties : RoundTies) (z : Int) (den : Nat) :
    roundInt ties (-z) den = -roundInt ties z den := by
  rw [roundInt, roundInt, Int.sign_neg, Int.natAbs_neg, Int.neg_mul]

theorem natAbs_roundInt (ties : RoundTies) (z : Int) {den : Nat} (hden : 0 < den) :
    (roundInt ties z den).natAbs = roundQuotient ties z.natAbs den := by
  obtain ⟨num, rfl | rfl⟩ := z.eq_nat_or_neg
  · rw [roundInt_natCast ties num hden, Int.natAbs_natCast, Int.natAbs_natCast]
  · rw [roundInt_neg, roundInt_natCast ties num hden, Int.natAbs_neg, Int.natAbs_neg, Int.natAbs_natCast,
      Int.natAbs_natCast]

theorem abs_div_sub_roundInt (ties : RoundTies) (z : Int) {den : Nat} (hden : 0 < den) :
    |(z : ℚ) / den - roundInt ties z den| = |(z.natAbs : ℚ) / den - roundQuotient ties z.natAbs den| := by
  obtain ⟨num, rfl | rfl⟩ := z.eq_nat_or_neg
  · rw [roundInt_natCast ties num hden, Int.natAbs_natCast, Int.cast_natCast, Int.cast_natCast]
  · rw [roundInt_neg, roundInt_natCast ties num hden, Int.natAbs_neg, Int.natAbs_natCast, ← abs_neg]
    push_cast
    ring_nf

/-- The rounded integer is within half of the quotient (40_fixed_point_12_4.md R104). -/
theorem abs_div_sub_roundInt_le (ties : RoundTies) (z : Int) {den : Nat} (hden : 0 < den) :
    |(z : ℚ) / den - roundInt ties z den| ≤ 1 / 2 := by
  rw [abs_div_sub_roundInt ties z hden]
  exact abs_div_sub_roundQuotient_le ties _ hden

/-- The even rule gives an even integer at a tie (40_fixed_point_12_4.md R104). -/
theorem even_roundInt_of_tie {z : Int} {den : Nat} (hden : 0 < den)
    (h : |(z : ℚ) / den - roundInt .even z den| = 1 / 2) : Even (roundInt .even z den) := by
  rw [abs_div_sub_roundInt .even z hden] at h
  rw [← Int.natAbs_even, natAbs_roundInt .even z hden]
  exact even_roundQuotient_of_tie hden (twice_mod_eq_of_abs_eq_half hden h)

/-- The away rule gives an integer of larger magnitude at a tie (40_fixed_point_12_4.md R104). -/
theorem abs_div_lt_abs_roundInt_of_tie {z : Int} {den : Nat} (hden : 0 < den)
    (h : |(z : ℚ) / den - roundInt .away z den| = 1 / 2) : |(z : ℚ) / den| < |(roundInt .away z den : ℚ)| := by
  rw [abs_div_sub_roundInt .away z hden] at h
  have hlt := div_lt_roundQuotient_of_tie hden (twice_mod_eq_of_abs_eq_half hden h)
  rw [← natAbs_roundInt .away z hden] at hlt
  rw [abs_div, Nat.abs_cast]
  simpa only [Nat.cast_natAbs, Int.cast_abs] using hlt

/-! ### The operation -/

/-- The exact sixteenths of an operand, as the quotient that the operation rounds (40_fixed_point_12_4.md R104). -/
theorem realVal_mul_sixteen (a : F32) : realVal a * 16 = ((valUnits a * 16 : Int) : ℚ) / ((2 ^ 149 : Nat) : ℚ) := by
  rw [realVal_eq]
  push_cast
  ring

/-- A finite operand is answered with its rounded sixteenths, put to 16 bits (40_fixed_point_12_4.md R104). -/
theorem answersOk_fxFromfloat {s : State} (hfin : isFinite s.a = true) :
    AnswersOk .fxFromfloat s
      (placeFx (trunc16 (roundInt s.config.fxRoundTies (valUnits s.a * 16) (2 ^ 149)))) :=
  answersOk_of_responseOf (fxFromFloat_of_isFinite _ hfin)

/-- An infinity or a NaN is FLOAT_NOT_FINITE (40_fixed_point_12_4.md R104). -/
theorem answersFault_fxFromfloat {s : State} (hfin : isFinite s.a = false) : AnswersFault .fxFromfloat s 4#3 :=
  answersFault_of_responseOf (c := .floatNotFinite) (by simp [responseOf, fxFromFloat, hfin])

/-- Settles O17: the integer is the rounded quotient, and the tie rules are those of `roundInt`. -/
theorem fxFromfloatRoundsToNearest : Obligations.FxFromfloatRoundsToNearest := by
  refine ⟨fxEncoding_of_eq rfl rfl,
    fun s => ⟨fun hfin => ⟨_, ?_, ?_, answersOk_fxFromfloat hfin⟩, answersFault_fxFromfloat⟩⟩
  · rw [realVal_mul_sixteen]
    exact abs_div_sub_roundInt_le _ _ (by positivity)
  · rw [realVal_mul_sixteen]
    intro htie
    cases hties : s.config.fxRoundTies with
    | even => exact even_roundInt_of_tie (by positivity) (by rwa [hties] at htie)
    | away => exact abs_div_lt_abs_roundInt_of_tie (by positivity) (by rwa [hties] at htie)

/-! ### Magnitudes from 2^35 on -/

/-- From 2^184 units on the exponent field is at least 162, so the magnitude is a multiple of 2^161 units. -/
theorem two_pow_dvd_magUnits {a : F32} (h : 2 ^ 184 ≤ magUnits a) : 2 ^ 161 ∣ magUnits a := by
  have hfr := fr_lt a
  rw [magUnits] at h ⊢
  split at h
  · omega
  · next hex =>
    have hexp : 161 ≤ ex a - 1 := by
      by_contra hsmall
      have hpow : 2 ^ (ex a - 1) ≤ 2 ^ 160 := Nat.pow_le_pow_right (by omega) (by omega)
      have hmag : (2 ^ 23 + fr a) * 2 ^ (ex a - 1) < 2 ^ 24 * 2 ^ 160 :=
        Nat.mul_lt_mul_of_lt_of_le (by omega) hpow (by positivity)
      omega
    rw [if_neg hex]
    exact (Nat.pow_dvd_pow 2 hexp).mul_left _

theorem natAbs_valUnits (a : F32) : (valUnits a).natAbs = magUnits a := by
  rw [valUnits]
  split <;> simp

/-- A multiple of 2^16 has nothing in the low 16 bits (00_scope.md R9). -/
theorem trunc16_mul_two_pow (z : Int) : trunc16 (z * 2 ^ 16) = 0#16 := by
  rw [trunc16, BitVec.ofInt_mul]
  exact BitVec.mul_zero

/-- Settles O18: the sixteenths are a multiple of 2^16, which is its own rounding and truncates to 0. -/
theorem fxFromfloatHugeIsZero : Obligations.FxFromfloatHugeIsZero := by
  intro s hfin hhuge
  have hmag : 2 ^ 184 ≤ magUnits s.a := by
    rw [abs_realVal, le_div_iff₀ (by positivity)] at hhuge
    have hpow : (2 : ℚ) ^ 35 * 2 ^ 149 = 2 ^ 184 := by rw [← pow_add]
    rw [hpow] at hhuge
    exact_mod_cast hhuge
  obtain ⟨k, hk⟩ : (2 ^ 161 : Int) ∣ valUnits s.a := by
    rw [← Int.dvd_natAbs, natAbs_valUnits]
    exact_mod_cast two_pow_dvd_magUnits hmag
  have hsixteenths : valUnits s.a * 16 = k * 2 ^ 16 * ((2 ^ 149 : Nat) : Int) := by
    rw [hk]
    push_cast
    ring
  have hanswer := answersOk_fxFromfloat hfin
  rwa [hsixteenths, roundInt_mul _ _ (by positivity), trunc16_mul_two_pow] at hanswer

end Sys2Proof.Machine
end

section
/-! # MF.FROMRAW, the minifloat decoder

The three operations are one decoder over the constants of the format (41_minifloat_decoder.md R151). Its fields are
read off the pattern's number by division and remainder; the value (R152) and the window (R153 to R156) follow from the
fields, and injectivity (R157) from the encoder, which takes every decoded pattern back. -/

namespace Sys2Proof

/-! ### The constants of the formats -/

theorem Format.M_le (f : Format) : f.M ≤ 23 := by cases f <;> decide

theorem Format.E_le (f : Format) : f.E ≤ 7 := by cases f <;> decide

end Sys2Proof

namespace Sys2Proof.Machine

/-! ### The encoding of an MF operation -/

/-- The bytes of an MF operation: `fmt` selects one of its three formats, and `fmt = 0b11` is reserved
(30_encoding.md R61, R66). -/
theorem mfAll_of_encode {c : Byte} {i24 i20 i16 : Instr} {P : Instr → Prop} (h24 : c = encode i24)
    (h20 : c + 0x40#8 = encode i20) (h16 : c + 0x80#8 = encode i16)
    (hfx : decodeFxOp (opField (c + 0xC0#8)).toNat = none)
    (hop : decodeMfOp .f24 (opField (c + 0xC0#8)).toNat = some i24)
    (hfmt : Format.ofCode (fmtField (c + 0xC0#8)) = none) (hP24 : P i24) (hP20 : P i20) (hP16 : P i16) :
    MfAll c i24 i20 i16 P :=
  ⟨⟨(decode_eq_ok_iff _ _).2 h24, (decode_eq_ok_iff _ _).2 h20, (decode_eq_ok_iff _ _).2 h16,
    decode_eq_reservedFormat hfx hop hfmt⟩, hP24, hP20, hP16⟩

/-! ### The pattern as a number -/

/-- The low M + E bits of a number are its exponent above its mantissa. -/
theorem mod_two_pow_add (n M E : Nat) : n % 2 ^ (M + E) = n / 2 ^ M % 2 ^ E * 2 ^ M + n % 2 ^ M := by
  rw [pow_add, Nat.mod_mul, Nat.add_comm, Nat.mul_comm]

/-! ### The decoded pattern -/

/-- What MF.FROMRAW of the format makes of the low W bits of a port. -/
def decodePattern (f : Format) (p : Word) : F32 := fromRaw f.M f.E (p.setWidth (f.M + f.E + 1))

theorem responseOf_fromrawOp (config : Config) (a b : Word) (f : Format) :
    responseOf config a b (fromrawOp f) = withOperand f.W a fun bits => .ok (fromRaw f.M f.E bits) := by
  cases f <;> rfl

/-- A justified pattern is answered with its decoding (41_minifloat_decoder.md R151). -/
theorem answersOk_fromrawOp {f : Format} {s : State} (h : s.a.toNat < 2 ^ f.W) :
    AnswersOk (fromrawOp f) s (decodePattern f s.a) := by
  apply answersOk_of_responseOf
  rw [responseOf_fromrawOp, withOperand_eq, if_pos h]
  rfl

/-- A pattern wider than the format is OPERAND_RANGE (30_encoding.md R64). -/
theorem answersFault_fromrawOp {f : Format} {s : State} (h : 2 ^ f.W ≤ s.a.toNat) : AnswersFault (fromrawOp f) s 2#3 :=
  answersFault_of_responseOf (c := .operandRange) (by rw [responseOf_fromrawOp, withOperand_of_wide h])

theorem gives_fromrawOp {f : Format} {p : Word} (h : p.toNat < 2 ^ f.W) (s : State) (b : Word) :
    Gives (fromrawOp f) s p b (decodePattern f p) :=
  answersOk_fromrawOp (s := s.present (encode (fromrawOp f)) p b) h

section
variable {f : Format} {p : Word} (hp : p.toNat < 2 ^ f.W)
include hp

theorem toNat_setWidth_of_lt : (p.setWidth (f.M + f.E + 1)).toNat = p.toNat :=
  (BitVec.toNat_setWidth _ _).trans (Nat.mod_eq_of_lt hp)

/-- Above its low M + E bits a pattern has one bit. -/
theorem toNat_div_lt_two : p.toNat / 2 ^ (f.M + f.E) < 2 :=
  Nat.div_lt_of_lt_mul (by rwa [Format.W, pow_succ] at hp)

/-- The sign of the decoded pattern is the pattern's top bit. -/
theorem sgn_decodePattern : sgn (decodePattern f p) = decide (p.toNat / 2 ^ (f.M + f.E) = 1) := by
  obtain ⟨hsgn, -, -⟩ := fromRaw_fields f.M_le f.E_le (p.setWidth (f.M + f.E + 1))
  have htop := toNat_div_lt_two hp
  rw [decodePattern, hsgn, ← BitVec.testBit_toNat, toNat_setWidth_of_lt hp, Nat.testBit_eq_decide_div_mod_eq,
    Nat.mod_eq_of_lt htop]

theorem toNat_sgn_decodePattern : (sgn (decodePattern f p)).toNat = p.toNat / 2 ^ (f.M + f.E) := by
  have htop := toNat_div_lt_two hp
  rw [sgn_decodePattern hp]
  interval_cases p.toNat / 2 ^ (f.M + f.E) <;> rfl

/-- A pattern with a bit set below the sign: the biased exponent, and the mantissa at the top of its field. -/
theorem fields_decodePattern_of_ne_zero (h : p.toNat % 2 ^ (f.M + f.E) ≠ 0) :
    ex (decodePattern f p) = p.toNat / 2 ^ f.M % 2 ^ f.E + bias f.E ∧
      fr (decodePattern f p) = p.toNat % 2 ^ f.M * 2 ^ (23 - f.M) := by
  obtain ⟨-, hnonzero, -⟩ := fromRaw_fields f.M_le f.E_le (p.setWidth (f.M + f.E + 1))
  rw [toNat_setWidth_of_lt hp] at hnonzero
  exact hnonzero h

/-- A pattern with no bit set below the sign decodes to a zero. -/
theorem fields_decodePattern_of_eq_zero (h : p.toNat % 2 ^ (f.M + f.E) = 0) :
    ex (decodePattern f p) = 0 ∧ fr (decodePattern f p) = 0 := by
  obtain ⟨-, -, hzero⟩ := fromRaw_fields f.M_le f.E_le (p.setWidth (f.M + f.E + 1))
  rw [toNat_setWidth_of_lt hp] at hzero
  exact hzero h

/-- Every exponent of the format lands in its window of normal binary32 exponents (41_minifloat_decoder.md R156). -/
theorem ex_decodePattern_mem_window (h : p.toNat % 2 ^ (f.M + f.E) ≠ 0) :
    bias f.E ≤ ex (decodePattern f p) ∧ ex (decodePattern f p) ≤ bias f.E + 2 ^ f.E - 1 := by
  obtain ⟨hex, -⟩ := fields_decodePattern_of_ne_zero hp h
  have hlt : p.toNat / 2 ^ f.M % 2 ^ f.E < 2 ^ f.E := Nat.mod_lt _ (by positivity)
  omega

/-- The encoder takes a decoded pattern back to where it came from. -/
theorem toRaw_decodePattern : toRaw f.M f.E (decodePattern f p) = .ok p := by
  have hsplit : p.toNat / 2 ^ (f.M + f.E) * 2 ^ (f.M + f.E) + p.toNat % 2 ^ (f.M + f.E) = p.toNat :=
    Nat.div_add_mod' _ _
  rw [toRaw_eq f.M_le f.E_le, toNat_sgn_decodePattern hp]
  by_cases h : p.toNat % 2 ^ (f.M + f.E) = 0
  · have hzero : isZero (decodePattern f p) = true := (isZero_iff _).2 (fields_decodePattern_of_eq_zero hp h)
    rw [if_pos hzero, show p.toNat / 2 ^ (f.M + f.E) * 2 ^ (f.M + f.E) = p.toNat by omega, BitVec.ofNat_toNat,
      BitVec.setWidth_eq]
  · obtain ⟨hex, hfr⟩ := fields_decodePattern_of_ne_zero hp h
    obtain ⟨hlow, hhigh⟩ := ex_decodePattern_mem_window hp h
    have hbias := bias_bounds f.E_le
    have hnonzero : isZero (decodePattern f p) ≠ true := by
      rw [Ne, isZero_iff]
      omega
    rw [if_neg hnonzero, if_neg (by omega), hex, hfr, Nat.add_sub_cancel, Nat.mul_div_cancel _ (by positivity),
      Nat.add_assoc, ← mod_two_pow_add, hsplit, BitVec.ofNat_toNat, BitVec.setWidth_eq]

end

/-- No two patterns of a format decode alike: the encoder would take the result back to both. -/
theorem decodePattern_injective {f : Format} {p q : Word} (hp : p.toNat < 2 ^ f.W) (hq : q.toNat < 2 ^ f.W)
    (h : decodePattern f p = decodePattern f q) : p = q := by
  have hback := toRaw_decodePattern hp
  rw [h, toRaw_decodePattern hq] at hback
  exact (Response.ok.inj hback).symm

/-! ### The value -/

/-- The value of a pattern with a normal exponent field (00_scope.md R11). -/
theorem realVal_of_ex_ne_zero {y : F32} (h : ex y ≠ 0) :
    realVal y = (if sgn y then -1 else 1) * ((1 + (fr y : ℚ) / 2 ^ 23) * 2 ^ ((ex y : ℤ) - 127)) := by
  rw [realVal, if_neg h]

/-- Taking the bias 127 off a re-biased exponent leaves the bias `2^(E-1) - 1` of the format. -/
theorem rebiased_sub {E : Nat} (hE : E ≤ 7) (e : Nat) :
    ((e + bias E : ℕ) : ℤ) - 127 = (e : ℤ) - (2 ^ (E - 1) - 1) := by
  have hpow : 2 ^ (E - 1) ≤ 128 := Nat.pow_le_pow_right Nat.two_pos (show E - 1 ≤ 7 by omega)
  rw [bias]
  push_cast [Nat.cast_sub hpow]
  ring

/-- A mantissa of M bits at the top of the 23-bit field is the same fraction. -/
theorem shifted_mantissa_div {M : Nat} (hM : M ≤ 23) (m : Nat) :
    ((m * 2 ^ (23 - M) : ℕ) : ℚ) / 2 ^ 23 = (m : ℚ) / 2 ^ M := by
  have hpow : (2 : ℚ) ^ 23 = 2 ^ M * 2 ^ (23 - M) := by rw [← pow_add, Nat.add_sub_cancel' hM]
  rw [hpow]
  push_cast
  exact mul_div_mul_right _ _ (by positivity)

/-- One sign bit as a factor. -/
theorem ite_eq_one_eq_neg_one_pow {n : Nat} (h : n < 2) : (if decide (n = 1) then -1 else 1 : ℚ) = (-1) ^ n := by
  interval_cases n <;> simp

/-! ### The obligations -/

/-- Settles O32: the fields of the decoded pattern, and the fault of a port that is too wide. -/
theorem mfFromrawAssemblesFields : Obligations.MfFromrawAssemblesFields := by
  refine ⟨mfAll_of_encode rfl rfl rfl rfl rfl rfl trivial trivial trivial,
    fun f s => ⟨fun hp => ?_, answersFault_fromrawOp⟩⟩
  refine ⟨_, answersOk_fromrawOp hp, sgn_decodePattern hp, ?_⟩
  split
  · next hlow => exact fields_decodePattern_of_ne_zero hp hlow
  · next hlow => exact fields_decodePattern_of_eq_zero hp (not_not.1 hlow)

/-- Settles O33: sign, fraction and exponent of the decoded fields, each as R152 writes it. -/
theorem mfFromrawValue : Obligations.MfFromrawValue := by
  intro f s hp hlow
  obtain ⟨hex, hfr⟩ := fields_decodePattern_of_ne_zero hp hlow
  have hbias := bias_bounds f.E_le
  refine ⟨_, answersOk_fromrawOp hp, ?_⟩
  rw [realVal_of_ex_ne_zero (by omega), sgn_decodePattern hp, ite_eq_one_eq_neg_one_pow (toNat_div_lt_two hp), hex, hfr,
    shifted_mantissa_div f.M_le, rebiased_sub f.E_le, mul_assoc]

/-- Settles O34: the zeros, and the window of each format, which lies between the exponent fields 64 and 191. -/
theorem mfFromrawImage : Obligations.MfFromrawImage := by
  intro f s hp
  refine ⟨_, answersOk_fromrawOp hp, ?_⟩
  rw [isZero_iff, isFinite_iff]
  by_cases hlow : s.a.toNat % 2 ^ (f.M + f.E) = 0
  · obtain ⟨hex, hfr⟩ := fields_decodePattern_of_eq_zero hp hlow
    exact ⟨.inl ⟨hex, hfr⟩, by omega, fun _ => hfr⟩
  · obtain ⟨-, hfr⟩ := fields_decodePattern_of_ne_zero hp hlow
    obtain ⟨hlo, hhi⟩ := ex_decodePattern_mem_window hp hlow
    have hbias := bias_bounds f.E_le
    exact ⟨.inr ⟨hlo, hhi, by rw [hfr, Nat.mul_mod_left]⟩, by omega, by omega⟩

/-- Settles O35: the decoder has an inverse on each format, and the three patterns of 1.0 decode alike. -/
theorem mfFromrawInjective : Obligations.MfFromrawInjective := by
  refine ⟨fun f s p q b y hp hq hgp hgq => ?_, fun s b => ⟨?_, ?_, ?_⟩⟩
  · exact decodePattern_injective hp hq
      (((gives_fromrawOp hp s b).unique hgp).trans (hgq.unique (gives_fromrawOp hq s b)))
  · exact gives_fromrawOp (f := .f24) (by decide) s b
  · exact gives_fromrawOp (f := .f20) (by decide) s b
  · exact gives_fromrawOp (f := .f16) (by decide) s b

end Sys2Proof.Machine
end

section
/-! # MF.FROMF32 and MF.TORAW, the minifloat encoder

The three MF.TORAW are one encoder over the constants of the format (42_minifloat_encoder.md R172). A number with a sign,
an exponent and a mantissa field is taken apart by division and remainder, so that decoding what was encoded is read off
the fields (R174, R176). The encoder truncates (R175): the order of magnitudes is that of the 31 bits below the sign, and
the decoder's patterns are those with the low mantissa bits 0. -/

namespace Sys2Proof.Machine

/-! ### From the answer back to the response -/

/-- A word that answers a request is the word of its response, unless the response is a drawn NaN. -/
theorem responseOf_of_answersOk {i : Instr} {s : State} {y : Word} (h : AnswersOk i s y)
    (hdraw : responseOf s.config s.a s.b i ≠ .anyNan) : responseOf s.config s.a s.b i = .ok y := by
  unfold AnswersOk at h
  rw [exec_eq] at h
  cases hr : responseOf s.config s.a s.b i with
  | ok z =>
    rw [hr] at h
    exact congrArg Response.ok (congrArg State.y (Host.Outcome.next.inj h))
  | anyNan => exact absurd hr hdraw
  | fault c =>
    rw [hr] at h
    exact absurd (congrArg State.err (Host.Outcome.next.inj h)) (show (1#1 : BitVec 1) ≠ 0#1 by decide)

/-! ### The encoder's response -/

theorem responseOf_torawOp (config : Config) (a b : Word) (f : Format) :
    responseOf config a b (torawOp f) = toRaw f.M f.E a := by
  cases f <;> rfl

/-- MF.TORAW answers a pattern exactly where the encoder gives it. -/
theorem answersOk_torawOp_iff (f : Format) (s : State) (p : Word) :
    AnswersOk (torawOp f) s p ↔ toRaw f.M f.E s.a = .ok p := by
  rw [← responseOf_torawOp s.config s.a s.b f]
  refine ⟨fun h => responseOf_of_answersOk h ?_, answersOk_of_responseOf⟩
  rw [responseOf_torawOp]
  exact toRaw_ne_anyNan _ _ _

theorem gives_torawOp_iff (f : Format) (s : State) (x b p : Word) :
    Gives (torawOp f) s x b p ↔ toRaw f.M f.E x = .ok p :=
  answersOk_torawOp_iff f (s.present (encode (torawOp f)) x b) p

/-- MF.TORAW answers ENCODE_RANGE where the encoder gives it. -/
theorem answersFault_torawOp {f : Format} {s : State} (h : toRaw f.M f.E s.a = .fault .encodeRange) :
    AnswersFault (torawOp f) s 5#3 :=
  answersFault_of_responseOf (c := .encodeRange) ((responseOf_torawOp _ _ _ f).trans h)

/-! ### Numbers with three fields -/

/-- The number of the minifloat pattern with this sign, exponent field and mantissa field (30_encoding.md R61). -/
def packFields (f : Format) (s : Bool) (e m : Nat) : Nat := s.toNat * 2 ^ (f.M + f.E) + e * 2 ^ f.M + m

theorem packFields_eq (f : Format) (s : Bool) (e m : Nat) :
    packFields f s e m = (s.toNat * 2 ^ f.E + e) * 2 ^ f.M + m := by
  rw [packFields, pow_add]
  ring

section
variable {f : Format} {s : Bool} {e m : Nat} (he : e < 2 ^ f.E) (hm : m < 2 ^ f.M)
include he hm

/-- Exponent and mantissa stay below the sign. -/
theorem exponent_add_mantissa_lt : e * 2 ^ f.M + m < 2 ^ (f.M + f.E) :=
  calc e * 2 ^ f.M + m < (e + 1) * 2 ^ f.M := by rw [Nat.succ_mul]; omega
    _ ≤ 2 ^ f.E * 2 ^ f.M := Nat.mul_le_mul_right _ he
    _ = 2 ^ (f.M + f.E) := by rw [← pow_add, Nat.add_comm]

theorem packFields_lt : packFields f s e m < 2 ^ f.W := by
  have hlow := exponent_add_mantissa_lt he hm
  rw [packFields, Format.W, pow_succ]
  cases s <;> simp only [Bool.toNat_false, Bool.toNat_true] <;> omega

/-- The port `y` holds the whole pattern. -/
theorem toNat_ofNat_packFields : (BitVec.ofNat 32 (packFields f s e m)).toNat = packFields f s e m := by
  have hW : f.W ≤ 32 := by cases f <;> decide
  exact Nat.mod_eq_of_lt ((packFields_lt he hm).trans_le (Nat.pow_le_pow_right Nat.two_pos hW))

theorem packFields_div_sign : packFields f s e m / 2 ^ (f.M + f.E) = s.toNat := by
  rw [packFields, Nat.add_assoc, Nat.add_comm, Nat.add_mul_div_right _ _ (by positivity),
    Nat.div_eq_of_lt (exponent_add_mantissa_lt he hm), Nat.zero_add]

theorem packFields_mod_low : packFields f s e m % 2 ^ (f.M + f.E) = e * 2 ^ f.M + m := by
  rw [packFields, Nat.add_assoc, Nat.mul_add_mod_self_right, Nat.mod_eq_of_lt (exponent_add_mantissa_lt he hm)]

theorem packFields_exponent : packFields f s e m / 2 ^ f.M % 2 ^ f.E = e := by
  rw [packFields_eq, Nat.add_comm, Nat.add_mul_div_right _ _ (by positivity), Nat.div_eq_of_lt hm, Nat.zero_add,
    Nat.mul_add_mod_self_right, Nat.mod_eq_of_lt he]

omit he in
theorem packFields_mod_mantissa : packFields f s e m % 2 ^ f.M = m := by
  rw [packFields_eq, Nat.mul_add_mod_self_right, Nat.mod_eq_of_lt hm]

/-- The decoder, on a pattern given by its fields. -/
theorem fields_decodePattern_of_packFields {p : Word} (hp : p.toNat = packFields f s e m) :
    sgn (decodePattern f p) = s ∧
      if e = 0 ∧ m = 0 then ex (decodePattern f p) = 0 ∧ fr (decodePattern f p) = 0
      else ex (decodePattern f p) = e + bias f.E ∧ fr (decodePattern f p) = m * 2 ^ (23 - f.M) := by
  have hlt : p.toNat < 2 ^ f.W := hp ▸ packFields_lt he hm
  have hlow : p.toNat % 2 ^ (f.M + f.E) = 0 ↔ e = 0 ∧ m = 0 := by
    rw [hp, packFields_mod_low he hm]
    simp
  constructor
  · rw [sgn_decodePattern hlt, hp, packFields_div_sign he hm]
    cases s <;> rfl
  · split
    · next h => exact fields_decodePattern_of_eq_zero hlt (hlow.2 h)
    · next h =>
      have hfields := fields_decodePattern_of_ne_zero hlt (mt hlow.1 h)
      rwa [hp, packFields_exponent he hm, packFields_mod_mantissa hm] at hfields

end

/-! ### Encoding, by fields -/

/-- What the encoder gives: a pattern whose fields are 0 where the operand is a zero, and otherwise the operand's
exponent without the bias, which the format can spell, and its top M mantissa bits (42_minifloat_encoder.md R172). -/
theorem fields_of_toRaw_eq_ok {f : Format} {x p : Word} (h : toRaw f.M f.E x = .ok p) :
    ∃ e m, e < 2 ^ f.E ∧ m < 2 ^ f.M ∧ p.toNat = packFields f (sgn x) e m ∧
      ((ex x = 0 ∧ fr x = 0 ∧ e = 0 ∧ m = 0) ∨ (ex x = e + bias f.E ∧ m = fr x / 2 ^ (23 - f.M))) := by
  have hpos : 0 < 2 ^ f.E := by positivity
  have hword {e m : Nat} (he : e < 2 ^ f.E) (hm : m < 2 ^ f.M)
      (hy : Response.ok (BitVec.ofNat 32 (packFields f (sgn x) e m)) = .ok p) : p.toNat = packFields f (sgn x) e m := by
    rw [← Response.ok.inj hy, toNat_ofNat_packFields he hm]
  rw [toRaw_eq f.M_le f.E_le] at h
  split_ifs at h with hzero hwindow
  · obtain ⟨hex, hfr⟩ := (isZero_iff x).1 hzero
    exact ⟨0, 0, hpos, by positivity, hword hpos (by positivity) (by simpa [packFields] using h),
      .inl ⟨hex, hfr, rfl, rfl⟩⟩
  · have he : ex x - bias f.E < 2 ^ f.E := by omega
    have hm : fr x / 2 ^ (23 - f.M) < 2 ^ f.M := by
      apply Nat.div_lt_of_lt_mul
      rw [← pow_add, Nat.sub_add_cancel f.M_le]
      exact fr_lt x
    exact ⟨_, _, he, hm, hword he hm h, .inr ⟨by omega, rfl⟩⟩

/-- A pattern that the encoder gives decodes to the operand with the low mantissa bits cleared, and to a zero of its
sign where the operand has the lowest exponent and no mantissa bit to keep (42_minifloat_encoder.md R174, R176). -/
theorem decodePattern_of_toRaw_eq_ok {f : Format} {x p : Word} (h : toRaw f.M f.E x = .ok p) :
    p.toNat < 2 ^ f.W ∧ sgn (decodePattern f p) = sgn x ∧
      if ex x = bias f.E ∧ fr x < 2 ^ (23 - f.M) then ex (decodePattern f p) = 0 ∧ fr (decodePattern f p) = 0
      else ex (decodePattern f p) = ex x ∧ fr (decodePattern f p) = fr x / 2 ^ (23 - f.M) * 2 ^ (23 - f.M) := by
  obtain ⟨e, m, he, hm, hp, hcases⟩ := fields_of_toRaw_eq_ok h
  obtain ⟨hsgn, hfields⟩ := fields_decodePattern_of_packFields he hm hp
  refine ⟨hp ▸ packFields_lt he hm, hsgn, ?_⟩
  obtain ⟨hex, hfr, rfl, rfl⟩ | ⟨hex, rfl⟩ := hcases
  · have hbias := bias_bounds f.E_le
    rw [if_neg (by omega), hex, hfr, Nat.zero_div, Nat.zero_mul]
    exact hfields
  · have hlowest : e = 0 ↔ ex x = bias f.E := by omega
    have hcollides : e = 0 ∧ fr x / 2 ^ (23 - f.M) = 0 ↔ ex x = bias f.E ∧ fr x < 2 ^ (23 - f.M) :=
      and_congr hlowest (Nat.div_eq_zero_iff_lt (by positivity))
    simpa only [hcollides, ← hex] using hfields

/-! ### The order of magnitudes -/

/-- The 31 bits below the sign, as a number (30_encoding.md R75). -/
def magBits (f : F32) : Nat := ex f * 2 ^ 23 + fr f

/-- A magnitude is below that of the next exponent. -/
theorem magUnits_lt_two_pow (f : F32) : magUnits f < 2 ^ 23 * 2 ^ ex f := by
  have hfr := fr_lt f
  rw [magUnits]
  split
  · next hex => rwa [hex, pow_zero, Nat.mul_one]
  · next hex =>
    calc (2 ^ 23 + fr f) * 2 ^ (ex f - 1) < 2 * 2 ^ 23 * 2 ^ (ex f - 1) :=
          Nat.mul_lt_mul_of_pos_right (by omega) (by positivity)
      _ = 2 ^ 23 * 2 ^ ex f := by
          rw [Nat.mul_comm 2, Nat.mul_assoc, ← pow_succ', Nat.sub_add_cancel (Nat.pos_of_ne_zero hex)]

/-- A normal magnitude is at least that of its exponent. -/
theorem two_pow_le_magUnits {f : F32} (h : ex f ≠ 0) : 2 ^ 23 * 2 ^ (ex f - 1) ≤ magUnits f := by
  rw [magUnits, if_neg h]
  exact Nat.mul_le_mul_right _ (Nat.le_add_right _ _)

/-- The order of magnitudes is that of the bits below the sign. -/
theorem magUnits_lt_of_magBits_lt {f g : F32} (h : magBits f < magBits g) : magUnits f < magUnits g := by
  have hfr := fr_lt f
  have hfr' := fr_lt g
  rw [magBits, magBits] at h
  obtain hex | hex : ex f = ex g ∨ ex f < ex g := by omega
  · have hlt : fr f < fr g := by omega
    rw [magUnits, magUnits, hex]
    split
    · exact hlt
    · exact Nat.mul_lt_mul_of_pos_right (by omega) (by positivity)
  · calc magUnits f < 2 ^ 23 * 2 ^ ex f := magUnits_lt_two_pow f
      _ ≤ 2 ^ 23 * 2 ^ (ex g - 1) := Nat.mul_le_mul_left _ (Nat.pow_le_pow_right Nat.two_pos (by omega))
      _ ≤ magUnits g := two_pow_le_magUnits (by omega)

theorem magUnits_eq_of_magBits_eq {f g : F32} (h : magBits f = magBits g) : magUnits f = magUnits g := by
  have hfr := fr_lt f
  have hfr' := fr_lt g
  rw [magBits, magBits] at h
  rw [magUnits, magUnits, show ex f = ex g by omega, show fr f = fr g by omega]

theorem abs_realVal_le_iff (f g : F32) : |realVal f| ≤ |realVal g| ↔ magBits f ≤ magBits g := by
  rw [abs_realVal, abs_realVal, div_le_div_iff_of_pos_right (by positivity), Nat.cast_le]
  constructor
  · contrapose!
    exact magUnits_lt_of_magBits_lt
  · intro h
    obtain hlt | heq := h.lt_or_eq
    · exact (magUnits_lt_of_magBits_lt hlt).le
    · exact (magUnits_eq_of_magBits_eq heq).le

/-! ### Truncation -/

/-- The low 23 - M bits hold no part of the exponent field. -/
theorem two_pow_dvd_two_pow_23 (f : Format) : 2 ^ (23 - f.M) ∣ 2 ^ 23 := Nat.pow_dvd_pow 2 (Nat.sub_le _ _)

/-- A decoded pattern has its low 23 - M bits 0. -/
theorem two_pow_dvd_magBits_decodePattern {f : Format} {p : Word} (hp : p.toNat < 2 ^ f.W) :
    2 ^ (23 - f.M) ∣ magBits (decodePattern f p) := by
  rw [magBits]
  by_cases hlow : p.toNat % 2 ^ (f.M + f.E) = 0
  · obtain ⟨hex, hfr⟩ := fields_decodePattern_of_eq_zero hp hlow
    rw [hex, hfr, Nat.zero_mul]
    exact Nat.dvd_zero _
  · obtain ⟨-, hfr⟩ := fields_decodePattern_of_ne_zero hp hlow
    rw [hfr]
    exact Nat.dvd_add ((two_pow_dvd_two_pow_23 f).mul_left _) (Nat.dvd_mul_left _ _)

/-- A pattern with the operand's exponent and its mantissa cut off below is the operand with its low bits cut off. -/
theorem magBits_of_truncated {x y : F32} (f : Format) (hex : ex y = ex x)
    (hfr : fr y = fr x / 2 ^ (23 - f.M) * 2 ^ (23 - f.M)) : magBits y = magBits x / 2 ^ (23 - f.M) * 2 ^ (23 - f.M) := by
  have hdvd : 2 ^ (23 - f.M) ∣ ex x * 2 ^ 23 := (two_pow_dvd_two_pow_23 f).mul_left _
  rw [magBits, magBits, hex, hfr, Nat.add_div_of_dvd_right hdvd, Nat.add_mul, Nat.div_mul_cancel hdvd]

/-- A multiple of `d` that is not above `n` is not above `n` cut off to a multiple of `d`. -/
theorem le_div_mul_of_dvd {d k n : Nat} (hdvd : d ∣ k) (hle : k ≤ n) : k ≤ n / d * d :=
  calc k = k / d * d := (Nat.div_mul_cancel hdvd).symm
    _ ≤ n / d * d := Nat.mul_le_mul_right _ (Nat.div_le_div_right hle)

/-! ### The obligations -/

/-- Settles O37: the encoder as one number, driven on the ports. -/
theorem mfTorawDerivesFields : Obligations.MfTorawDerivesFields := by
  refine ⟨mfAll_of_encode rfl rfl rfl rfl rfl rfl trivial trivial trivial, fun f s => ?_⟩
  have hraw := toRaw_eq f.M_le f.E_le s.a
  split_ifs at hraw ⊢ with hzero hwindow
  · exact (answersOk_torawOp_iff f s _).2 hraw
  · exact answersFault_torawOp hraw
  · exact (answersOk_torawOp_iff f s _).2 hraw

/-- Settles O38: the encoder takes every decoded pattern back. -/
theorem roundTripPatternFirst : Obligations.RoundTripPatternFirst :=
  fun f s p b hp => ⟨_, gives_fromrawOp hp s b, (gives_torawOp_iff f s _ b p).2 (toRaw_decodePattern hp)⟩

/-- Settles O39: the fields of the decoded encoding. -/
theorem roundTripFloatFirst : Obligations.RoundTripFloatFirst := by
  intro f s x b p hgives
  obtain ⟨hp, hsgn, hfields⟩ := decodePattern_of_toRaw_eq_ok ((gives_torawOp_iff f s x b p).1 hgives)
  exact ⟨_, gives_fromrawOp hp s b, hsgn, hfields⟩

/-- Settles O40: the magnitudes are ordered as the bits below the sign, of which the encoder cuts off the lowest, and
those are 0 in every decoded pattern. -/
theorem torawTruncates : Obligations.TorawTruncates := by
  intro f s x b p hgives hcollides
  obtain ⟨hp, hsgn, hfields⟩ := decodePattern_of_toRaw_eq_ok ((gives_torawOp_iff f s x b p).1 hgives)
  rw [if_neg hcollides] at hfields
  obtain ⟨hex, hfr⟩ := hfields
  have htrunc := magBits_of_truncated f hex hfr
  refine ⟨_, gives_fromrawOp hp s b, hsgn, ?_, fun q z hq hz hle => ?_⟩
  · rw [abs_realVal_le_iff, htrunc]
    exact Nat.div_mul_le_self _ _
  · obtain rfl : z = decodePattern f q := hz.unique (gives_fromrawOp hq s b)
    rw [abs_realVal_le_iff] at hle ⊢
    rw [htrunc]
    exact le_div_mul_of_dvd (two_pow_dvd_magBits_decodePattern hq) hle

/-- Settles O41: the lowest exponent of the window with no mantissa bit to keep leaves both fields 0, and the exponent
below it is outside the window. -/
theorem torawCollidesWithZero : Obligations.TorawCollidesWithZero := by
  intro f s
  have hbias := bias_bounds f.E_le
  have hpos : 0 < 2 ^ f.E := by positivity
  have hraw := mfTorawDerivesFields.2 f s
  have hnonzero (hex : ex s.a ≠ 0) : isZero s.a ≠ true := fun hzero => hex ((isZero_iff _).1 hzero).1
  refine ⟨fun hex hfr => ?_, fun hex => ?_⟩
  · rwa [if_neg (hnonzero (by omega)), if_neg (by omega), hex, Nat.sub_self, Nat.zero_mul, Nat.div_eq_of_lt hfr] at hraw
  · rwa [if_neg (hnonzero (by omega)), if_pos (by omega)] at hraw

/-- Settles O36: MF.FROMF32 answers port `a` as it is. -/
theorem mfFromf32IsIdentity : Obligations.MfFromf32IsIdentity :=
  mfAll_of_encode rfl rfl rfl rfl rfl rfl (fun _ => answersOk_of_responseOf rfl) (fun _ => answersOk_of_responseOf rfl)
    (fun _ => answersOk_of_responseOf rfl)

end Sys2Proof.Machine
end

section
/-! # The MF arithmetic and comparisons, by the binary32 functions

One response serves the three formats of an operation, so each operation is its three bytes and that response
(43_minifloat_arithmetic.md R200 to R211, R213). What the binary32 functions are is the matter of the parts below. -/

namespace Sys2Proof.Machine

/-! ### One response for the three formats -/

/-- A property of an operation in its three formats, by what it follows from. -/
theorem MfAll.imp {c : Byte} {i24 i20 i16 : Instr} {P Q : Instr → Prop} (h : MfAll c i24 i20 i16 P)
    (hPQ : ∀ i, P i → Q i) : MfAll c i24 i20 i16 Q := by
  obtain ⟨hdec, h24, h20, h16⟩ := h
  exact ⟨hdec, hPQ _ h24, hPQ _ h20, hPQ _ h16⟩

/-- An operation whose three formats have one response answers with it in each of them. -/
theorem mfAll_answersAs {c : Byte} {i24 i20 i16 : Instr} {f : Word → Word → Response}
    (hdec : decode c = .ok i24 ∧ decode (c + 0x40#8) = .ok i20 ∧ decode (c + 0x80#8) = .ok i16 ∧
      decode (c + 0xC0#8) = .error .reservedFormat)
    (h24 : ∀ config a b, responseOf config a b i24 = f a b) (h20 : ∀ config a b, responseOf config a b i20 = f a b)
    (h16 : ∀ config a b, responseOf config a b i16 = f a b) :
    MfAll c i24 i20 i16 fun i => ∀ s : State, AnswersAs i s (f s.a s.b) := by
  have hanswers {i : Instr} (h : ∀ config a b, responseOf config a b i = f a b) (s : State) :
      AnswersAs i s (f s.a s.b) :=
    h s.config s.a s.b ▸ answersAs_responseOf i s
  exact ⟨hdec, hanswers h24, hanswers h20, hanswers h16⟩

/-! ### The operations by their responses -/

/-- MF.ZERO answers +0.0 (43_minifloat_arithmetic.md R200). -/
theorem mfAll_mfZero : MfAll 0x20#8 .mfZeroF24 .mfZeroF20 .mfZeroF16 fun i => ∀ s : State, AnswersOk i s 0#32 :=
  mfAll_answersAs (f := fun _ _ => .ok plusZero) ⟨rfl, rfl, rfl, rfl⟩
    (fun _ _ _ => rfl) (fun _ _ _ => rfl) fun _ _ _ => rfl

/-- Settles O45: the response is `f32Neg` of port `a`. -/
theorem mfNegInvertsSign : Obligations.MfNegInvertsSign :=
  mfAll_answersAs (f := fun a _ => .ok (f32Neg a)) ⟨rfl, rfl, rfl, rfl⟩
    (fun _ _ _ => rfl) (fun _ _ _ => rfl) fun _ _ _ => rfl

/-- Settles O46: the responses are `f32Add`, `f32Sub` and `f32Div` of the ports. -/
theorem mfAddSubDivAreBinary32 : Obligations.MfAddSubDivAreBinary32 :=
  ⟨mfAll_answersAs ⟨rfl, rfl, rfl, rfl⟩ (fun _ _ _ => rfl) (fun _ _ _ => rfl) fun _ _ _ => rfl,
    mfAll_answersAs ⟨rfl, rfl, rfl, rfl⟩ (fun _ _ _ => rfl) (fun _ _ _ => rfl) fun _ _ _ => rfl,
    mfAll_answersAs ⟨rfl, rfl, rfl, rfl⟩ (fun _ _ _ => rfl) (fun _ _ _ => rfl) fun _ _ _ => rfl⟩

/-- Settles O54: the responses are the predicates as Booleans on `y`, GT and GE with the operands swapped. -/
theorem mfComparisonsAnswer : Obligations.MfComparisonsAnswer :=
  ⟨mfAll_answersAs (f := fun a b => .ok (placeBool (f32Lt a b))) ⟨rfl, rfl, rfl, rfl⟩
      (fun _ _ _ => rfl) (fun _ _ _ => rfl) fun _ _ _ => rfl,
    mfAll_answersAs (f := fun a b => .ok (placeBool (f32Le a b))) ⟨rfl, rfl, rfl, rfl⟩
      (fun _ _ _ => rfl) (fun _ _ _ => rfl) fun _ _ _ => rfl,
    mfAll_answersAs (f := fun a b => .ok (placeBool (f32Lt b a))) ⟨rfl, rfl, rfl, rfl⟩
      (fun _ _ _ => rfl) (fun _ _ _ => rfl) fun _ _ _ => rfl,
    mfAll_answersAs (f := fun a b => .ok (placeBool (f32Le b a))) ⟨rfl, rfl, rfl, rfl⟩
      (fun _ _ _ => rfl) (fun _ _ _ => rfl) fun _ _ _ => rfl,
    mfAll_answersAs (f := fun a b => .ok (placeBool (f32Eq a b))) ⟨rfl, rfl, rfl, rfl⟩
      (fun _ _ _ => rfl) (fun _ _ _ => rfl) fun _ _ _ => rfl,
    mfAll_answersAs (f := fun a b => .ok (placeBool (!f32Eq a b))) ⟨rfl, rfl, rfl, rfl⟩
      (fun _ _ _ => rfl) (fun _ _ _ => rfl) fun _ _ _ => rfl⟩

/-! ### The product with its forced zero -/

/-- The product of MF.MUL by the conditions of the rule (43_minifloat_arithmetic.md R204). -/
theorem mfMul_eq (A B : F32) :
    mfMul A B = if (isZero A = true ∧ isNan B = false) ∨ (isZero B = true ∧ isNan A = false) then .ok 0#32
      else f32Mul A B := by
  simp [mfMul, plusZero]

/-- Settles O47: the response is `mfMul` of the ports. -/
theorem mfMulForcesZero : Obligations.MfMulForcesZero := by
  have hall : MfAll 0x2A#8 .mfMulF24 .mfMulF20 .mfMulF16 fun i => ∀ s : State, AnswersAs i s (mfMul s.a s.b) :=
    mfAll_answersAs ⟨rfl, rfl, rfl, rfl⟩ (fun _ _ _ => rfl) (fun _ _ _ => rfl) fun _ _ _ => rfl
  refine hall.imp fun i hi s => ?_
  have hanswer := hi s
  rw [mfMul_eq] at hanswer
  split at hanswer
  · next hzero => rwa [if_pos hzero]
  · next hzero => rwa [if_neg hzero]

/-! ### The formats among one another -/

/-- Two operations with one response show alike, but for two draws of some NaN. -/
theorem sameResponse_of_responseOf_eq {i j : Instr} {s t u : State} {P : Prop}
    (hresponse : responseOf s.config s.a s.b i = responseOf s.config s.a s.b j)
    (hdraw : responseOf s.config s.a s.b i = .anyNan → P) (ht : exec i s = .next t) (hu : exec j s = .next u) :
    SameResponse P t u := by
  obtain ⟨t', u', ht', hu', hsame⟩ := answer_sameResponse s s (encode i) (encode j) hdraw
  rw [exec_eq] at ht
  rw [exec_eq, ← hresponse] at hu
  cases ht.symm.trans ht'
  cases hu.symm.trans hu'
  exact hsame

/-- Every operation answers a next state. -/
theorem exists_exec_eq_next (i : Instr) (s : State) : ∃ t, exec i s = .next t := by
  rw [exec_eq]
  cases responseOf s.config s.a s.b i <;> exact ⟨_, rfl⟩

/-- Settles O56: the three formats have one response. -/
theorem arithmeticIsFormatIndependent : Obligations.ArithmeticIsFormatIndependent := by
  intro g hg s
  obtain ⟨h20, h16⟩ : responseOf s.config s.a s.b g.1 = responseOf s.config s.a s.b g.2.1 ∧
      responseOf s.config s.a s.b g.1 = responseOf s.config s.a s.b g.2.2 := by
    simp only [List.mem_cons, List.not_mem_nil, or_false] at hg
    rcases hg with rfl | rfl | rfl | rfl | rfl | rfl | rfl | rfl | rfl | rfl | rfl | rfl <;> exact ⟨rfl, rfl⟩
  have hdraw : responseOf s.config s.a s.b g.1 = .anyNan → g.1 ∈ nanDrawers := mem_nanDrawers_of_responseOf_eq_anyNan
  obtain ⟨t, ht⟩ := exists_exec_eq_next g.1 s
  obtain ⟨u, hu⟩ := exists_exec_eq_next g.2.1 s
  obtain ⟨v, hv⟩ := exists_exec_eq_next g.2.2 s
  exact ⟨t, u, v, ht, hu, hv, sameResponse_of_responseOf_eq h20 hdraw ht hu,
    sameResponse_of_responseOf_eq h16 hdraw ht hv,
    sameResponse_of_responseOf_eq (h20.symm.trans h16) (h20 ▸ hdraw) hu hv⟩

end Sys2Proof.Machine
end

section
/-! # Correct rounding

A pattern's value is its sign times its units of 2^-149, and so are the sum, the product and the quotient of two values,
the units then being a quotient of naturals. `roundF32` rounds that quotient to a count of 2^sh units; the values that
are no such count lie below the binade of the quotient, so the rounded count is the nearest of all values
(43_minifloat_arithmetic.md R191). -/

namespace Sys2Proof.Machine

/-! ### Values by sign and units -/

/-- The factor that a sign stands for (00_scope.md R11). -/
def signFactor (s : Bool) : Int := if s then -1 else 1

@[simp] theorem signFactor_mul_self (s : Bool) : signFactor s * signFactor s = 1 := by cases s <;> rfl

@[simp] theorem abs_signFactor (s : Bool) : |(signFactor s : ℚ)| = 1 := by cases s <;> simp [signFactor]

@[simp] theorem natAbs_signFactor_mul (s : Bool) (v : Int) : (signFactor s * v).natAbs = v.natAbs := by
  cases s <;> simp [signFactor]

theorem signFactor_not (s : Bool) : signFactor (!s) = -signFactor s := by cases s <;> rfl

theorem signFactor_xor (s t : Bool) : signFactor (s ^^ t) = signFactor s * signFactor t := by
  cases s <;> cases t <;> rfl

/-- A sign divides as it multiplies. -/
theorem signFactor_div (s t : Bool) : (signFactor s : ℚ) / signFactor t = signFactor s * signFactor t := by
  cases t <;> simp [signFactor, div_neg]

/-- The magnitude of a value of known sign. -/
theorem abs_signFactor_mul (s : Bool) {x : ℚ} (hx : 0 ≤ x) : |(signFactor s : ℚ) * x| = x := by
  rw [abs_mul, abs_signFactor, one_mul, abs_of_nonneg hx]

/-- The sign of a product with a positive magnitude. -/
theorem decide_signFactor_mul_neg (s : Bool) {x : ℚ} (hx : 0 < x) : decide ((signFactor s : ℚ) * x < 0) = s := by
  cases s <;> simp [signFactor, hx, hx.le]

/-- An integer is its sign times its magnitude. -/
theorem signFactor_mul_natAbs (v : Int) : signFactor (decide (v < 0)) * v.natAbs = v := by
  by_cases hneg : v < 0
  · rw [signFactor, if_pos (decide_eq_true hneg)]
    omega
  · rw [signFactor, if_neg (by simpa using hneg)]
    omega

theorem valUnits_eq_signFactor_mul (f : F32) : valUnits f = signFactor (sgn f) * magUnits f := by
  rw [valUnits, signFactor]
  split <;> simp

theorem realVal_eq_signFactor_mul (f : F32) : realVal f = signFactor (sgn f) * ((magUnits f : ℚ) / 2 ^ 149) := by
  rw [realVal_eq, valUnits_eq_signFactor_mul]
  push_cast
  ring

/-- A value as it is counted in the direction of a sign. -/
theorem realVal_eq_signFactor_mul_signed (s : Bool) (f : F32) :
    realVal f = signFactor s * (((signFactor s * valUnits f : Int) : ℚ) / 2 ^ 149) := by
  rw [realVal_eq, ← mul_div_assoc, ← Int.cast_mul, ← mul_assoc, signFactor_mul_self, one_mul]

/-- Two magnitudes of one sign are as far apart as their values. -/
theorem abs_signFactor_mul_sub (s : Bool) (x y : ℚ) :
    |signFactor s * (x / 2 ^ 149) - signFactor s * (y / 2 ^ 149)| = |y - x| / 2 ^ 149 := by
  have hpos : (0 : ℚ) < 2 ^ 149 := by positivity
  rw [← mul_sub, ← sub_div, abs_mul, abs_signFactor, one_mul, abs_div, abs_sub_comm, abs_of_pos hpos]

/-- Only the zeros have the value 0. -/
theorem valUnits_eq_zero_iff (f : F32) : valUnits f = 0 ↔ isZero f = true := by
  rw [← Int.natAbs_eq_zero, natAbs_valUnits, magUnits_eq_zero_iff]

theorem magUnits_pos {f : F32} (h : isZero f = false) : 0 < magUnits f :=
  Nat.pos_of_ne_zero fun h0 => absurd ((magUnits_eq_zero_iff f).1 h0) (by simp [h])

/-! ### The values that are no count of 2^sh units -/

/-- A value is a count of 2^sh units, or it lies below the binade in which the patterns are 2^sh units apart. -/
theorem two_pow_dvd_or_magUnits_lt (f : F32) (sh : Nat) :
    2 ^ sh ∣ magUnits f ∨ sh ≠ 0 ∧ magUnits f < 2 ^ 23 * 2 ^ sh := by
  rcases Nat.eq_zero_or_pos sh with rfl | hpos
  · exact .inl (one_dvd _)
  · rcases Nat.lt_or_ge sh (ex f) with hlarge | hsmall
    · left
      rw [magUnits, if_neg (by omega)]
      exact (Nat.pow_dvd_pow 2 (by omega)).mul_left _
    · exact .inr ⟨by omega, (magUnits_lt_two_pow f).trans_le
        (Nat.mul_le_mul_left _ (Nat.pow_le_pow_right Nat.two_pos hsmall))⟩

/-- The same of the value as it is counted in the direction of a sign. -/
theorem signed_units_dvd_or_lt (s : Bool) (f : F32) (sh : Nat) :
    2 ^ sh ∣ signFactor s * valUnits f ∨ sh ≠ 0 ∧ signFactor s * valUnits f < 2 ^ 23 * 2 ^ sh := by
  have hnat : (signFactor s * valUnits f).natAbs = magUnits f := by rw [natAbs_signFactor_mul, natAbs_valUnits]
  refine (two_pow_dvd_or_magUnits_lt f sh).imp (fun hdvd => ?_) fun ⟨hsh, hlow⟩ => ⟨hsh, ?_⟩
  · rw [← Int.dvd_natAbs, hnat]
    exact_mod_cast hdvd
  · rw [← hnat] at hlow
    exact Int.le_natAbs.trans_lt (by exact_mod_cast hlow)

/-! ### The nearest integer -/

/-- No integer is nearer to the quotient than the rounded one, which is even where another is as near. -/
theorem roundQuotient_nearest_int (num : Nat) {den : Nat} (hden : 0 < den) (z : Int) :
    |(num : ℚ) / den - roundQuotient .even num den| ≤ |(num : ℚ) / den - z| ∧
    (|(num : ℚ) / den - roundQuotient .even num den| = |(num : ℚ) / den - z| → z ≠ roundQuotient .even num den →
      Even (roundQuotient .even num den)) := by
  have hhalf := abs_div_sub_roundQuotient_le .even num hden
  by_cases hz : z = roundQuotient .even num den
  · subst hz
    exact ⟨le_of_eq (by simp), fun _ hne => absurd rfl hne⟩
  · have hone : (1 : ℚ) ≤ |(z : ℚ) - roundQuotient .even num den| := by
      exact_mod_cast Int.one_le_abs (sub_ne_zero.2 hz)
    have htriangle := abs_sub_le (z : ℚ) ((num : ℚ) / den) (roundQuotient .even num den)
    rw [abs_sub_comm (z : ℚ) ((num : ℚ) / den)] at htriangle
    exact ⟨by linarith, fun htie _ =>
      even_roundQuotient_of_tie hden (twice_mod_eq_of_abs_eq_half hden (le_antisymm hhalf (by linarith)))⟩

/-- A number below an integer that the quotient reaches is farther from the quotient than the rounded one. -/
theorem roundQuotient_nearer_than_below {num den k : Nat} (hden : 0 < den) (hk : k * den ≤ num) {w : ℚ} (hw : w < k) :
    |(num : ℚ) / den - roundQuotient .even num den| < |(num : ℚ) / den - w| := by
  have hpos : (0 : ℚ) < den := by exact_mod_cast hden
  have hreach : (k : ℚ) ≤ num / den := by
    rw [le_div_iff₀ hpos]
    exact_mod_cast hk
  obtain ⟨hnear, -⟩ := roundQuotient_nearest_int num hden k
  calc |(num : ℚ) / den - roundQuotient .even num den| ≤ |(num : ℚ) / den - k| := by simpa using hnear
    _ = num / den - k := abs_of_nonneg (by linarith)
    _ < num / den - w := by linarith
    _ ≤ |(num : ℚ) / den - w| := le_abs_self _

theorem roundQuotient_le {ties : RoundTies} {num den k : Nat} (hden : 0 < den) (h : num ≤ k * den) :
    roundQuotient ties num den ≤ k := by
  obtain ⟨-, hhigh, -⟩ := roundQuotient_spec ties num den hden
  by_contra hgt
  have hstep : (k + 1) * den ≤ roundQuotient ties num den * den := Nat.mul_le_mul_right _ (by omega)
  rw [Nat.succ_mul] at hstep
  omega

theorem le_roundQuotient {ties : RoundTies} {num den k : Nat} (hden : 0 < den) (h : k * den ≤ num) :
    k ≤ roundQuotient ties num den := by
  obtain ⟨hlow, -, -⟩ := roundQuotient_spec ties num den hden
  by_contra hlt
  have hstep : (roundQuotient ties num den + 1) * den ≤ k * den := Nat.mul_le_mul_right _ (by omega)
  rw [Nat.succ_mul] at hstep
  omega

/-- The even rule rounds up to an even integer from half a step below it on. -/
theorem even_le_roundQuotient_iff (num : Nat) {den k : Nat} (hden : 0 < den) (hk : Even k) :
    k ≤ roundQuotient .even num den ↔ 2 * (k * den) ≤ 2 * num + den := by
  obtain ⟨hlow, hhigh, -⟩ := roundQuotient_spec .even num den hden
  constructor
  · intro hle
    have hmul : k * den ≤ roundQuotient .even num den * den := Nat.mul_le_mul_right _ hle
    omega
  · intro hle
    by_contra hlt
    have hstep : (roundQuotient .even num den + 1) * den ≤ k * den := Nat.mul_le_mul_right _ (by omega)
    rw [Nat.succ_mul] at hstep
    have heven : Even (roundQuotient .even num den) := even_roundQuotient_of_tie hden
      (twice_mod_eq_of_tie (k := roundQuotient .even num den) hden (.inl (by omega)))
    have hnext : k = roundQuotient .even num den + 1 :=
      Nat.eq_of_mul_eq_mul_right hden (by rw [Nat.succ_mul]; omega)
    exact Nat.not_even_iff_odd.2 heven.add_one (hnext ▸ hk)

/-! ### The rounded count of units -/

/-- `roundF32` rounds to counts of `2 ^ roundShift` units. -/
def roundShift (num den : Nat) : Nat := Nat.log2 (num / den) - 23

/-- The count that `roundF32` rounds to. -/
def roundCount (num den : Nat) : Nat := roundQuotient .even num (den * 2 ^ roundShift num den)

theorem roundF32_eq (s : Bool) (num den : Nat) :
    roundF32 s num den = packF32 s (roundCount num den) (roundShift num den) := rfl

section
variable {num den : Nat} (hden : 0 < den)
include hden

theorem den_mul_two_pow_pos : 0 < den * 2 ^ roundShift num den := by positivity

/-- The quotient lies below the end of its binade. -/
theorem lt_two_pow_mul_den : num < 2 ^ 24 * (den * 2 ^ roundShift num den) := by
  have hlog : num / den < 2 ^ (Nat.log2 (num / den) + 1) := Nat.lt_log2_self
  have hpow : 2 ^ (Nat.log2 (num / den) + 1) ≤ 2 ^ (24 + roundShift num den) :=
    Nat.pow_le_pow_right Nat.two_pos (by rw [roundShift]; omega)
  rw [Nat.mul_left_comm, ← pow_add, Nat.mul_comm]
  exact (Nat.div_lt_iff_lt_mul hden).1 (hlog.trans_le hpow)

/-- The quotient reaches the start of its binade, unless the patterns are single units there. -/
theorem two_pow_mul_den_le (h : roundShift num den ≠ 0) : 2 ^ 23 * (den * 2 ^ roundShift num den) ≤ num := by
  rw [roundShift] at h
  have hlog : 2 ^ (23 + roundShift num den) ≤ num / den := by
    rw [roundShift, Nat.add_sub_cancel' (by omega)]
    exact Nat.log2_self_le fun h0 => h (by simp [h0])
  rw [Nat.mul_left_comm, ← pow_add, Nat.mul_comm]
  exact (Nat.le_div_iff_mul_le hden).1 hlog

theorem roundCount_le : roundCount num den ≤ 2 ^ 24 :=
  roundQuotient_le (den_mul_two_pow_pos hden) (lt_two_pow_mul_den hden).le

theorem two_pow_le_roundCount (h : roundShift num den ≠ 0) : 2 ^ 23 ≤ roundCount num den :=
  le_roundQuotient (den_mul_two_pow_pos hden) (two_pow_mul_den_le hden h)

/-- The distance from the quotient, counted in `2 ^ roundShift` units. -/
theorem abs_div_sub_eq_mul (w : ℚ) : |(num : ℚ) / den - w * 2 ^ roundShift num den| =
    |(num : ℚ) / (den * 2 ^ roundShift num den : Nat) - w| * 2 ^ roundShift num den := by
  have hpow : (0 : ℚ) < 2 ^ roundShift num den := by positivity
  have hne : (den : ℚ) ≠ 0 := by exact_mod_cast hden.ne'
  rw [← abs_of_pos hpow, ← abs_mul, abs_of_pos hpow]
  congr 1
  push_cast
  field_simp

/-- Among the integers that are a count of `2 ^ roundShift` units or lie below the binade, none is nearer to the
quotient than the rounded count, which is even where another is as near. -/
theorem roundCount_nearest {v : Int}
    (hv : 2 ^ roundShift num den ∣ v ∨ roundShift num den ≠ 0 ∧ v < 2 ^ 23 * 2 ^ roundShift num den) :
    |(num : ℚ) / den - roundCount num den * 2 ^ roundShift num den| ≤ |(num : ℚ) / den - v| ∧
    (|(num : ℚ) / den - roundCount num den * 2 ^ roundShift num den| = |(num : ℚ) / den - v| →
      v ≠ roundCount num den * 2 ^ roundShift num den → Even (roundCount num den)) := by
  have hpow : (0 : ℚ) < 2 ^ roundShift num den := by positivity
  have hpos := den_mul_two_pow_pos (num := num) hden
  rcases hv with ⟨z, rfl⟩ | ⟨hsh, hlt⟩
  · obtain ⟨hnear, htie⟩ := roundQuotient_nearest_int num hpos z
    have hcast : ((2 ^ roundShift num den * z : Int) : ℚ) = z * 2 ^ roundShift num den := by push_cast; ring
    rw [hcast, abs_div_sub_eq_mul hden, abs_div_sub_eq_mul hden, mul_le_mul_iff_left₀ hpow, mul_left_inj' hpow.ne']
    exact ⟨hnear, fun heq hne => htie heq fun hz => hne (by rw [hz, roundCount]; ring)⟩
  · have hw : (v : ℚ) / 2 ^ roundShift num den < (2 ^ 23 : Nat) := by
      rw [div_lt_iff₀ hpow]
      exact_mod_cast hlt
    have hfar := roundQuotient_nearer_than_below hpos (two_pow_mul_den_le hden hsh) hw
    have hv : (v : ℚ) = v / 2 ^ roundShift num den * 2 ^ roundShift num den := (div_mul_cancel₀ _ hpow.ne').symm
    have hdist : |(num : ℚ) / den - roundCount num den * 2 ^ roundShift num den| < |(num : ℚ) / den - v| := by
      rw [hv, abs_div_sub_eq_mul hden, abs_div_sub_eq_mul hden, mul_lt_mul_iff_left₀ hpow]
      exact hfar
    exact ⟨hdist.le, fun heq => absurd heq hdist.ne⟩

/-! ### Overflow -/

/-- The rounded count overflows exactly from 2^128 - 2^103 on, half a step below 2^128 (43_minifloat_arithmetic.md
R191). -/
theorem overflow_iff : 2 ^ 128 * 2 ^ 149 ≤ roundCount num den * 2 ^ roundShift num den ↔
    (2 ^ 25 - 1) * 2 ^ 252 * den ≤ num := by
  have hlt := lt_two_pow_mul_den (num := num) hden
  have hcount := roundCount_le (num := num) hden
  rcases Nat.lt_trichotomy (roundShift num den) 253 with hsmall | hlast | hlarge
  · have hpow : 2 ^ roundShift num den ≤ 2 ^ 252 := Nat.pow_le_pow_right Nat.two_pos (by omega)
    have hbelow : roundCount num den * 2 ^ roundShift num den ≤ 2 ^ 24 * 2 ^ 252 := Nat.mul_le_mul hcount hpow
    have hnum : den * 2 ^ roundShift num den ≤ den * 2 ^ 252 := Nat.mul_le_mul_left _ hpow
    exact ⟨fun h => by omega, fun h => by omega⟩
  · have hiff := even_le_roundQuotient_iff num (k := 2 ^ 24) (den_mul_two_pow_pos (num := num) hden) (by decide)
    rw [← roundCount, hlast] at hiff
    rw [hlast]
    omega
  · have hsh : roundShift num den ≠ 0 := by omega
    have hpow : 2 ^ 254 ≤ 2 ^ roundShift num den := Nat.pow_le_pow_right Nat.two_pos hlarge
    have habove : 2 ^ 23 * 2 ^ 254 ≤ roundCount num den * 2 ^ roundShift num den :=
      Nat.mul_le_mul (two_pow_le_roundCount hden hsh) hpow
    have hnum : den * 2 ^ 254 ≤ den * 2 ^ roundShift num den := Nat.mul_le_mul_left _ hpow
    have hreach := two_pow_mul_den_le hden hsh
    exact iff_of_true (le_trans (by norm_num) habove) (by omega)

/-! ### The rounded pattern -/

/-- Below the overflow the rounded pattern is finite, with the sign and the count of units handed over. -/
theorem roundF32_fields (s : Bool) (hlt : num < (2 ^ 25 - 1) * 2 ^ 252 * den) :
    sgn (roundF32 s num den) = s ∧ isFinite (roundF32 s num den) = true ∧
      magUnits (roundF32 s num den) = roundCount num den * 2 ^ roundShift num den ∧
      fr (roundF32 s num den) % 2 = roundCount num den % 2 := by
  rw [roundF32_eq]
  exact packF32_fields s _ _ (roundCount_le hden) (Classical.or_iff_not_imp_left.2 (two_pow_le_roundCount hden))
    (Nat.lt_of_not_le fun h => absurd ((overflow_iff hden).1 h) (Nat.not_le.2 hlt))

/-- From 2^128 - 2^103 on the rounded pattern is the infinity. -/
theorem roundF32_overflow (s : Bool) (hle : (2 ^ 25 - 1) * 2 ^ 252 * den ≤ num) : roundF32 s num den = infOf s := by
  rw [roundF32_eq]
  exact packF32_overflow s _ _ ((overflow_iff hden).2 hle)

/-- 2^128 - 2^103 as a bound on a quotient of units. -/
theorem limit_le_div_iff :
    (2 : ℚ) ^ 128 - 2 ^ 103 ≤ (num : ℚ) / den / 2 ^ 149 ↔ (2 ^ 25 - 1) * 2 ^ 252 * den ≤ num := by
  have hpos : (0 : ℚ) < den := by exact_mod_cast hden
  rw [le_div_iff₀ (by positivity), le_div_iff₀ hpos, ← Nat.cast_le (α := ℚ)]
  push_cast
  norm_num

/-- The value of the rounded pattern, below the overflow. -/
theorem realVal_roundF32 (s : Bool) (hlt : num < (2 ^ 25 - 1) * 2 ^ 252 * den) : realVal (roundF32 s num den) =
    signFactor s * ((roundCount num den * 2 ^ roundShift num den : ℚ) / 2 ^ 149) := by
  obtain ⟨hsgn, -, hunits, -⟩ := roundF32_fields hden s hlt
  rw [realVal_eq_signFactor_mul, hsgn, hunits]
  push_cast
  rfl

/-- `roundF32` rounds its sign times its quotient of units correctly (43_minifloat_arithmetic.md R191). -/
theorem roundsTo_roundF32 (s : Bool) (hnum : 0 < num) :
    RoundsTo (signFactor s * ((num : ℚ) / den / 2 ^ 149)) (roundF32 s num den) := by
  have hmag : (0 : ℚ) < (num : ℚ) / den / 2 ^ 149 := by positivity
  rw [RoundsTo, abs_signFactor_mul s hmag.le, decide_signFactor_mul_neg s hmag, ← not_le, limit_le_div_iff hden,
    Nat.not_le]
  refine ⟨roundF32_overflow hden s, fun hlt => ?_⟩
  obtain ⟨hsgn, hfin, -, hlast⟩ := roundF32_fields hden s hlt
  refine ⟨hfin, hsgn, fun g _ => ?_⟩
  obtain ⟨hnear, htie⟩ := roundCount_nearest hden (signed_units_dvd_or_lt s g (roundShift num den))
  rw [realVal_roundF32 hden s hlt, realVal_eq_signFactor_mul_signed s g, abs_signFactor_mul_sub, abs_signFactor_mul_sub,
    div_le_div_iff_of_pos_right (by positivity), div_left_inj' (by positivity), hlast, ← Nat.even_iff]
  refine ⟨hnear, fun heq hne => htie heq fun hz => hne ?_⟩
  rw [hz]
  push_cast
  rfl

end

end Sys2Proof.Machine
end

section
/-! # The binary32 sum, difference, product and quotient

Each function takes its special cases in the order of its rule and rounds the exact result of the rest, which is a sign
times a quotient of units (43_minifloat_arithmetic.md R192 to R195). A value that a pattern has is rounded to that
pattern, so +0.0 is the additive identity (R200). -/

namespace Sys2Proof.Machine

/-! ### The classes of patterns -/

theorem isNan_eq_false_of_isFinite {f : F32} (h : isFinite f = true) : isNan f = false := by
  have hex := (isFinite_iff f).1 h
  simp [isNan, hex]

theorem isInf_eq_false_of_isFinite {f : F32} (h : isFinite f = true) : isInf f = false := by
  have hex := (isFinite_iff f).1 h
  simp [isInf, hex]

theorem isNan_eq_false_of_isInf {f : F32} (h : isInf f = true) : isNan f = false := by
  obtain ⟨-, hfr⟩ := (isInf_iff f).1 h
  simp [isNan, hfr]

theorem isNan_eq_false_of_isZero {f : F32} (h : isZero f = true) : isNan f = false := by
  obtain ⟨hex, -⟩ := (isZero_iff f).1 h
  simp [isNan, hex]

/-- What is neither a NaN nor an infinity is finite. -/
theorem isFinite_of_not {f : F32} (hnan : ¬ isNan f = true) (hinf : ¬ isInf f = true) : isFinite f = true := by
  rw [isNan_iff] at hnan
  rw [isInf_iff] at hinf
  rw [isFinite_iff]
  tauto

/-- Each sign has one zero. -/
theorem eq_of_isZero {f g : F32} (hf : isZero f = true) (hg : isZero g = true) (hs : sgn f = sgn g) : f = g := by
  obtain ⟨hexf, hfrf⟩ := (isZero_iff f).1 hf
  obtain ⟨hexg, hfrg⟩ := (isZero_iff g).1 hg
  exact eq_of_fields hs (hexf.trans hexg.symm) (hfrf.trans hfrg.symm)

/-- Each sign has one infinity. -/
theorem eq_of_isInf {f g : F32} (hf : isInf f = true) (hg : isInf g = true) (hs : sgn f = sgn g) : f = g := by
  obtain ⟨hexf, hfrf⟩ := (isInf_iff f).1 hf
  obtain ⟨hexg, hfrg⟩ := (isInf_iff g).1 hg
  exact eq_of_fields hs (hexf.trans hexg.symm) (hfrf.trans hfrg.symm)

/-! ### Negation -/

@[simp] theorem isInf_f32Neg (f : F32) : isInf (f32Neg f) = isInf f := by
  obtain ⟨-, hex, hfr⟩ := fields_f32Neg f
  rw [isInf, isInf, hex, hfr]

@[simp] theorem isFinite_f32Neg (f : F32) : isFinite (f32Neg f) = isFinite f := by
  obtain ⟨-, hex, -⟩ := fields_f32Neg f
  rw [isFinite, isFinite, hex]

@[simp] theorem sgn_f32Neg (f : F32) : sgn (f32Neg f) = !sgn f := (fields_f32Neg f).1

@[simp] theorem valUnits_f32Neg (f : F32) : valUnits (f32Neg f) = -valUnits f := by
  obtain ⟨hsgn, hex, hfr⟩ := fields_f32Neg f
  have hmag : magUnits (f32Neg f) = magUnits f := by rw [magUnits, magUnits, hex, hfr]
  rw [valUnits_eq_signFactor_mul, valUnits_eq_signFactor_mul, hsgn, hmag, signFactor_not, Int.neg_mul]

theorem realVal_f32Neg (f : F32) : realVal (f32Neg f) = -realVal f := by
  rw [realVal_eq, realVal_eq, valUnits_f32Neg, Int.cast_neg, neg_div]

/-! ### The sum -/

theorem f32Add_of_isNan {A B : F32} (h : isNan A = true ∨ isNan B = true) : f32Add A B = .anyNan := by
  simp [f32Add, h]

theorem f32Add_of_isInf {A B : F32} (hA : isInf A = true) (hB : isInf B = true) :
    f32Add A B = if sgn A = sgn B then .ok A else .anyNan := by
  simp [f32Add, hA, hB, isNan_eq_false_of_isInf]

theorem f32Add_of_isFinite {A B : F32} (hA : isFinite A = true) (hB : isFinite B = true) :
    f32Add A B = if isZero A = true ∧ isZero B = true then .ok (if sgn A = sgn B then A else 0#32)
      else if valUnits A + valUnits B = 0 then .ok 0#32
      else .ok (roundF32 (decide (valUnits A + valUnits B < 0)) (valUnits A + valUnits B).natAbs 1) := by
  simp only [f32Add, isNan_eq_false_of_isFinite hA, isNan_eq_false_of_isFinite hB, isInf_eq_false_of_isFinite hA,
    isInf_eq_false_of_isFinite hB, Bool.or_false, Bool.and_false, Bool.false_eq_true, if_false, Bool.and_eq_true,
    plusZero]
  split_ifs <;> rfl

/-- The sum of an infinity and a finite pattern is the infinity, on either side. -/
theorem f32Add_of_isInf_of_isFinite {A B : F32} (hA : isInf A = true) (hB : isFinite B = true) :
    f32Add A B = .ok A ∧ f32Add B A = .ok A := by
  simp [f32Add, hA, isNan_eq_false_of_isInf, isNan_eq_false_of_isFinite hB, isInf_eq_false_of_isFinite hB]

theorem realVal_add (A B : F32) : realVal A + realVal B = ((valUnits A + valUnits B : Int) : ℚ) / 2 ^ 149 := by
  rw [realVal_eq, realVal_eq, ← add_div, Int.cast_add]

theorem realVal_add_eq_zero_iff (A B : F32) : realVal A + realVal B = 0 ↔ valUnits A + valUnits B = 0 := by
  rw [realVal_add, div_eq_zero_iff, or_iff_left (by positivity), Int.cast_eq_zero]

/-- An integer count of units is rounded correctly. -/
theorem roundsTo_roundF32_units {v : Int} (hv : v ≠ 0) :
    RoundsTo ((v : ℚ) / 2 ^ 149) (roundF32 (decide (v < 0)) v.natAbs 1) := by
  have hround := roundsTo_roundF32 Nat.one_pos (decide (v < 0)) (Int.natAbs_pos.2 hv)
  have hcast : (signFactor (decide (v < 0)) : ℚ) * (v.natAbs : ℚ) = v := by
    rw [← Int.cast_natCast, ← Int.cast_mul, signFactor_mul_natAbs]
  rwa [Nat.cast_one, div_one, ← mul_div_assoc, hcast] at hround

/-- Settles O48: the special cases are those of the definition, and the exact sum is an integer count of units. -/
theorem binaryAddRoundsCorrectly : Obligations.BinaryAddRoundsCorrectly := by
  intro A B
  by_cases hnan : isNan A = true ∨ isNan B = true
  · rw [if_pos hnan]
    exact f32Add_of_isNan hnan
  · rw [if_neg hnan]
    obtain ⟨hnanA, hnanB⟩ := not_or.1 hnan
    have hfinA : ¬ isInf A = true → isFinite A = true := isFinite_of_not hnanA
    have hfinB : ¬ isInf B = true → isFinite B = true := isFinite_of_not hnanB
    split_ifs with hinf hsgn hinfA hinfB hzero hsgn hsum
    · rw [f32Add_of_isInf hinf.1 hinf.2, if_pos hsgn]
    · rw [f32Add_of_isInf hinf.1 hinf.2, if_neg hsgn]
    · exact (f32Add_of_isInf_of_isFinite hinfA (hfinB fun hB => hinf ⟨hinfA, hB⟩)).1
    · exact (f32Add_of_isInf_of_isFinite hinfB (hfinA hinfA)).2
    · rw [f32Add_of_isFinite (hfinA hinfA) (hfinB hinfB), if_pos hzero, if_pos hsgn]
    · rw [f32Add_of_isFinite (hfinA hinfA) (hfinB hinfB), if_pos hzero, if_neg hsgn]
    · rw [f32Add_of_isFinite (hfinA hinfA) (hfinB hinfB), if_neg hzero,
        if_pos ((realVal_add_eq_zero_iff A B).1 hsum)]
    · have hunits : valUnits A + valUnits B ≠ 0 := fun h => hsum ((realVal_add_eq_zero_iff A B).2 h)
      refine ⟨_, ?_, realVal_add A B ▸ roundsTo_roundF32_units hunits⟩
      rw [f32Add_of_isFinite (hfinA hinfA) (hfinB hinfB), if_neg hzero, if_neg hunits]

/-! ### The additive identity -/

/-- Patterns of one sign and one magnitude are the same. -/
theorem eq_of_sgn_of_magUnits {f g : F32} (hs : sgn f = sgn g) (hm : magUnits f = magUnits g) : f = g := by
  have hbits : magBits f = magBits g :=
    le_antisymm (Nat.le_of_not_lt fun h => hm.not_gt (magUnits_lt_of_magBits_lt h))
      (Nat.le_of_not_lt fun h => hm.not_lt (magUnits_lt_of_magBits_lt h))
  have hfrf := fr_lt f
  have hfrg := fr_lt g
  rw [magBits, magBits] at hbits
  exact eq_of_fields hs (by omega) (by omega)

/-- A pattern is the one of its sign with its magnitude. -/
theorem eq_of_sgn_of_realVal {f g : F32} (hs : sgn f = sgn g) (h : realVal f = realVal g) : f = g := by
  apply eq_of_sgn_of_magUnits hs
  rw [realVal_eq_signFactor_mul, realVal_eq_signFactor_mul, hs] at h
  have hne : (signFactor (sgn g) : ℚ) ≠ 0 := fun h0 => by simpa [h0] using abs_signFactor (sgn g)
  rw [mul_right_inj' hne, div_left_inj' (by positivity)] at h
  exact_mod_cast h

/-- A finite pattern lies below the overflow, its magnitude being at most 2^128 - 2^104. -/
theorem abs_realVal_lt_limit {f : F32} (h : isFinite f = true) : |realVal f| < 2 ^ 128 - 2 ^ 103 := by
  have hle : magUnits f ≤ (2 ^ 24 - 1) * 2 ^ 253 := by
    have hfr := fr_lt f
    have hex := ex_lt f
    have hfin := (isFinite_iff f).1 h
    rw [magUnits]
    split
    · omega
    · exact Nat.mul_le_mul (by omega) (Nat.pow_le_pow_right Nat.two_pos (by omega))
  rw [abs_realVal, div_lt_iff₀ (by positivity)]
  calc (magUnits f : ℚ) ≤ ((2 ^ 24 - 1) * 2 ^ 253 : Nat) := by exact_mod_cast hle
    _ < (2 ^ 128 - 2 ^ 103) * 2 ^ 149 := by norm_num

/-- A value that a pattern has is rounded to that pattern. -/
theorem eq_of_roundsTo_realVal {x y : F32} (hfin : isFinite x = true) (hzero : isZero x = false)
    (h : RoundsTo (realVal x) y) : y = x := by
  obtain ⟨-, hnearest⟩ := h
  obtain ⟨-, hsgn, hall⟩ := hnearest (abs_realVal_lt_limit hfin)
  have hmag : (0 : ℚ) < (magUnits x : ℚ) / 2 ^ 149 := div_pos (by exact_mod_cast magUnits_pos hzero) (by positivity)
  have hsgn' : sgn y = sgn x := by
    rw [hsgn, realVal_eq_signFactor_mul, decide_signFactor_mul_neg _ hmag]
  obtain ⟨hnear, -⟩ := hall x hfin
  rw [sub_self, abs_zero] at hnear
  exact eq_of_sgn_of_realVal hsgn' (sub_eq_zero.1 (abs_eq_zero.1 (le_antisymm hnear (abs_nonneg _))))

theorem f32Add_comm (A B : F32) : f32Add A B = f32Add B A := by
  by_cases hnan : isNan A = true ∨ isNan B = true
  · rw [f32Add_of_isNan hnan, f32Add_of_isNan hnan.symm]
  · obtain ⟨hnanA, hnanB⟩ := not_or.1 hnan
    by_cases hinfA : isInf A = true <;> by_cases hinfB : isInf B = true
    · rw [f32Add_of_isInf hinfA hinfB, f32Add_of_isInf hinfB hinfA]
      by_cases hs : sgn A = sgn B
      · rw [eq_of_isInf hinfA hinfB hs]
      · rw [if_neg hs, if_neg (Ne.symm hs)]
    · obtain ⟨hleft, hright⟩ := f32Add_of_isInf_of_isFinite hinfA (isFinite_of_not hnanB hinfB)
      rw [hleft, hright]
    · obtain ⟨hleft, hright⟩ := f32Add_of_isInf_of_isFinite hinfB (isFinite_of_not hnanA hinfA)
      rw [hleft, hright]
    · have hfinA := isFinite_of_not hnanA hinfA
      have hfinB := isFinite_of_not hnanB hinfB
      rw [f32Add_of_isFinite hfinA hfinB, f32Add_of_isFinite hfinB hfinA, Int.add_comm (valUnits B)]
      by_cases hzero : isZero A = true ∧ isZero B = true
      · rw [if_pos hzero, if_pos hzero.symm]
        by_cases hs : sgn A = sgn B
        · rw [eq_of_isZero hzero.1 hzero.2 hs]
        · rw [if_neg hs, if_neg (Ne.symm hs)]
      · rw [if_neg hzero, if_neg (mt And.symm hzero)]

/-- Adding +0.0 changes nothing but -0.0 (43_minifloat_arithmetic.md R200). -/
theorem f32Add_plusZero {x : F32} (hnan : ¬ isNan x = true) :
    f32Add x 0#32 = .ok (if x = 0x80000000#32 then 0#32 else x) := by
  by_cases hneg : x = 0x80000000#32
  · subst hneg
    rfl
  · rw [if_neg hneg]
    by_cases hinf : isInf x = true
    · exact (f32Add_of_isInf_of_isFinite hinf rfl).1
    · have hfin := isFinite_of_not hnan hinf
      rw [f32Add_of_isFinite hfin rfl]
      by_cases hzero : isZero x = true
      · have hsgn : sgn x = sgn 0#32 := by
          cases hs : sgn x with
          | false => rfl
          | true => exact absurd (eq_of_isZero (g := 0x80000000#32) hzero rfl hs) hneg
        rw [if_pos ⟨hzero, rfl⟩, if_pos hsgn]
      · have hunits : valUnits x + valUnits 0#32 = valUnits x := Int.add_zero _
        have hne : valUnits x ≠ 0 := fun h => hzero ((valUnits_eq_zero_iff x).1 h)
        rw [if_neg fun h => hzero h.1, hunits, if_neg hne]
        exact congrArg Response.ok (eq_of_roundsTo_realVal hfin (Bool.eq_false_iff.2 hzero)
          (realVal_eq x ▸ roundsTo_roundF32_units hne))

theorem f32Eq_self {x : F32} (h : isNan x = false) : f32Eq x x = true := by simp [f32Eq, h]

/-- Settles O44: the sum with +0.0 on the right, and its commutation. -/
theorem mfZeroIsAdditiveIdentity : Obligations.MfZeroIsAdditiveIdentity := by
  refine ⟨mfAll_mfZero, fun x hnan => ?_⟩
  have hadd := f32Add_plusZero (Bool.eq_false_iff.1 hnan)
  refine ⟨_, hadd, (f32Add_comm _ _).trans hadd, ?_⟩
  split
  · next hneg =>
    subst hneg
    exact ⟨rfl, rfl⟩
  · exact ⟨f32Eq_self hnan, rfl⟩

/-! ### The difference -/

theorem f32Sub_of_isNan {A B : F32} (h : isNan A = true ∨ isNan B = true) : f32Sub A B = .anyNan := by
  simp [f32Sub, h]

theorem f32Sub_of_not_isNan {A B : F32} (h : ¬ (isNan A = true ∨ isNan B = true)) :
    f32Sub A B = f32Add A (f32Neg B) := by
  rw [f32Sub, if_neg (by simpa using h)]

/-- The difference of two infinities of one sign is invalid (43_minifloat_arithmetic.md R193). -/
theorem f32Sub_of_isInf {A B : F32} (hA : isInf A = true) (hB : isInf B = true) (hs : sgn A = sgn B) :
    f32Sub A B = .anyNan := by
  rw [f32Sub_of_not_isNan (by simp [isNan_eq_false_of_isInf hA, isNan_eq_false_of_isInf hB]),
    f32Add_of_isInf hA (by rwa [isInf_f32Neg]), if_neg (by simp [hs])]

/-- A finite pattern less itself is +0.0 (43_minifloat_arithmetic.md R193). -/
theorem f32Sub_self_of_isFinite {A : F32} (h : isFinite A = true) : f32Sub A A = .ok 0#32 := by
  rw [f32Sub_of_not_isNan (by simp [isNan_eq_false_of_isFinite h]), f32Add_of_isFinite h (by rwa [isFinite_f32Neg]),
    if_neg (by simp : ¬ sgn A = sgn (f32Neg A)), if_pos (by simp : valUnits A + valUnits (f32Neg A) = 0), ite_self]

/-- Settles O49: the consequences of the rule follow from the cases of the sum. -/
theorem binarySubAddsNegation : Obligations.BinarySubAddsNegation := by
  refine ⟨fun A => ⟨rfl, fun _ _ => realVal_f32Neg A⟩, fun A B => ?_, fun A => f32Sub_self_of_isFinite,
    fun A hinf => f32Sub_of_isInf hinf hinf rfl, rfl, rfl⟩
  split_ifs with hnan
  · exact f32Sub_of_isNan hnan
  · exact f32Sub_of_not_isNan hnan

/-! ### The product -/

theorem f32Mul_of_isNan {A B : F32} (h : isNan A = true ∨ isNan B = true) : f32Mul A B = .anyNan := by
  simp [f32Mul, h]

theorem realVal_mul (A B : F32) : realVal A * realVal B = signFactor (sgn A ^^ sgn B) *
    (((magUnits A * magUnits B : Nat) : ℚ) / ((2 ^ 149 : Nat) : ℚ) / 2 ^ 149) := by
  rw [realVal_eq_signFactor_mul, realVal_eq_signFactor_mul, signFactor_xor]
  push_cast
  ring

/-- Settles O50: the special cases are those of the definition, and the exact product is a quotient of units. -/
theorem binaryMulRoundsCorrectly : Obligations.BinaryMulRoundsCorrectly := by
  intro A B
  simp only [f32Mul, Bool.or_eq_true, Bool.and_eq_true]
  split_ifs with hnan hinvalid hinf hzero
  · rfl
  · rfl
  · rfl
  · rfl
  · obtain ⟨hA, hB⟩ := not_or.1 hzero
    have hpos : 0 < magUnits A * magUnits B :=
      Nat.mul_pos (magUnits_pos (Bool.eq_false_iff.2 hA)) (magUnits_pos (Bool.eq_false_iff.2 hB))
    exact ⟨_, rfl, realVal_mul A B ▸ roundsTo_roundF32 (by positivity) _ hpos⟩

/-! ### The quotient -/

theorem f32Div_of_isNan {A B : F32} (h : isNan A = true ∨ isNan B = true) : f32Div A B = .anyNan := by
  simp [f32Div, h]

/-- Infinity by infinity and zero by zero are invalid (43_minifloat_arithmetic.md R195). -/
theorem f32Div_of_invalid {A B : F32} (h : (isInf A = true ∧ isInf B = true) ∨ (isZero A = true ∧ isZero B = true)) :
    f32Div A B = .anyNan := by
  simp [f32Div, h]

theorem realVal_div (A B : F32) : realVal A / realVal B = signFactor (sgn A ^^ sgn B) *
    (((magUnits A * 2 ^ 149 : Nat) : ℚ) / (magUnits B : ℚ) / 2 ^ 149) := by
  rw [realVal_eq_signFactor_mul, realVal_eq_signFactor_mul, signFactor_xor, mul_div_mul_comm, signFactor_div]
  push_cast
  ring

/-- Settles O51: the special cases are those of the definition, and the exact quotient is one of units. -/
theorem binaryDivRoundsCorrectly : Obligations.BinaryDivRoundsCorrectly := by
  intro A B
  simp only [f32Div, Bool.or_eq_true, Bool.and_eq_true]
  split_ifs with hnan hinvalid hinfA hinfB hzeroB hzeroA
  · rfl
  · rfl
  · rfl
  · rfl
  · rfl
  · rfl
  · have hposA : 0 < magUnits A := magUnits_pos (Bool.eq_false_iff.2 hzeroA)
    have hposB : 0 < magUnits B := magUnits_pos (Bool.eq_false_iff.2 hzeroB)
    exact ⟨_, rfl, realVal_div A B ▸ roundsTo_roundF32 hposB _ (by positivity)⟩

/-! ### The drawn NaN -/

/-- The operation answers the draw where its response is some NaN (43_minifloat_arithmetic.md R198). -/
theorem answersOk_draw {i : Instr} {s : State} (h : responseOf s.config s.a s.b i = .anyNan) :
    AnswersOk i s (nanOf (Config.nanDraw s.draws (encode i) s.a s.b)) := by
  rw [AnswersOk, exec_eq, h]
  rfl

/-- With a NaN operand MF.MUL forces no zero (43_minifloat_arithmetic.md R204). -/
theorem mfMul_of_isNan {A B : F32} (h : isNan A = true ∨ isNan B = true) : mfMul A B = .anyNan := by
  rw [mfMul_eq, if_neg, f32Mul_of_isNan h]
  rintro (⟨hzero, hnan⟩ | ⟨hzero, hnan⟩)
  · simp [isNan_eq_false_of_isZero hzero, hnan] at h
  · simp [isNan_eq_false_of_isZero hzero, hnan] at h

/-- MF.ADD, MF.SUB, MF.MUL and MF.DIV of a NaN answer some NaN (43_minifloat_arithmetic.md R192 to R195). -/
theorem responseOf_nanDrawer_of_isNan {config : Config} {a b : Word} {i : Instr} (hi : i ∈ nanDrawers)
    (h : isNan a = true ∨ isNan b = true) : responseOf config a b i = .anyNan := by
  cases i with
  | mfAddF24 | mfAddF20 | mfAddF16 => exact f32Add_of_isNan h
  | mfSubF24 | mfSubF20 | mfSubF16 => exact f32Sub_of_isNan h
  | mfMulF24 | mfMulF20 | mfMulF16 => exact mfMul_of_isNan h
  | mfDivF24 | mfDivF20 | mfDivF16 => exact f32Div_of_isNan h
  | _ => exact absurd hi (by decide)

/-- Settles O52: the invalid operations and those of a NaN have the response of some NaN, which is the draw. -/
theorem nanResultsAreDrawn : Obligations.NanResultsAreDrawn := by
  refine ⟨fun i hi s hnan => answersOk_draw (responseOf_nanDrawer_of_isNan hi hnan), ?_, ?_, ?_, isNan_nanOf,
    nanOf_of_isNan⟩
  · intro i hi s hA hB hs
    have hresponse : f32Add s.a s.b = .anyNan := by rw [f32Add_of_isInf hA hB, if_neg hs]
    fin_cases hi <;> exact answersOk_draw hresponse
  · intro i hi s hA hB hs
    have hresponse : f32Sub s.a s.b = .anyNan := f32Sub_of_isInf hA hB hs
    fin_cases hi <;> exact answersOk_draw hresponse
  · intro i hi s hinvalid
    have hresponse : f32Div s.a s.b = .anyNan := f32Div_of_invalid hinvalid
    fin_cases hi <;> exact answersOk_draw hresponse

end Sys2Proof.Machine
end

section
/-! # The binary32 comparisons

The predicates compare values in the rationals with both infinities, a linear order, so what the order of non-NaN
patterns satisfies is read off that order (43_minifloat_arithmetic.md R196, R214). -/

namespace Sys2Proof.Machine

/-! ### The machine's extended values in the rationals with both infinities -/

/-- The extended value that the machine compares, as an element of the linear order (43_minifloat_arithmetic.md
R196). -/
def ExtVal.toExt : ExtVal → WithBot (WithTop ℚ)
  | .negInf => ⊥
  | .fin v => (((v : ℚ) / 2 ^ 149 : ℚ) : WithTop ℚ)
  | .posInf => ((⊤ : WithTop ℚ) : WithBot (WithTop ℚ))

/-- The machine compares the value as the rules write it. -/
theorem extVal_eq_toExt_xval (f : F32) : extVal f = (xval f).toExt := by
  rw [extVal, xval]
  split_ifs
  · rfl
  · rfl
  · rw [realVal_eq, ExtVal.toExt]

theorem units_lt_iff (v w : Int) : (v : ℚ) / 2 ^ 149 < (w : ℚ) / 2 ^ 149 ↔ v < w := by
  rw [div_lt_div_iff_of_pos_right (by positivity), Int.cast_lt]

/-- The machine's order is that of the linear order. -/
theorem toExt_lt_iff (x y : ExtVal) : x.toExt < y.toExt ↔ extLt x y = true := by
  cases x with
  | negInf => cases y <;> simp [ExtVal.toExt, extLt]
  | fin v =>
    cases y with
    | negInf => simp [ExtVal.toExt, extLt]
    | fin w => simp [ExtVal.toExt, extLt, units_lt_iff]
    | posInf => exact iff_of_true (WithBot.coe_lt_coe.2 (WithTop.coe_lt_top _)) rfl
  | posInf => cases y <;> simp [ExtVal.toExt, extLt]

theorem toExt_eq_iff (x y : ExtVal) : x.toExt = y.toExt ↔ x = y := by
  cases x <;> cases y <;> simp [ExtVal.toExt]

/-! ### The predicates -/

theorem f32Eq_iff (A B : F32) : f32Eq A B = true ↔ isNan A = false ∧ isNan B = false ∧ extVal A = extVal B := by
  simp [f32Eq, extVal_eq_toExt_xval, toExt_eq_iff, and_assoc]

theorem f32Lt_iff (A B : F32) : f32Lt A B = true ↔ isNan A = false ∧ isNan B = false ∧ extVal A < extVal B := by
  simp [f32Lt, extVal_eq_toExt_xval, toExt_lt_iff, and_assoc]

theorem f32Le_iff (A B : F32) : f32Le A B = true ↔ isNan A = false ∧ isNan B = false ∧ extVal A ≤ extVal B := by
  simp [f32Le, extVal_eq_toExt_xval, le_iff_lt_or_eq, toExt_lt_iff, toExt_eq_iff, and_assoc]

/-- Settles O53: the machine's extended values are ordered as those of the rule. -/
theorem binaryComparisonPredicates : Obligations.BinaryComparisonPredicates :=
  fun A B => ⟨f32Eq_iff A B, f32Lt_iff A B, f32Le_iff A B⟩

/-! ### The order of the patterns that are no NaNs -/

/-- No predicate holds of a NaN (43_minifloat_arithmetic.md R214). -/
theorem comparisons_of_isNan {A B : F32} (h : isNan A = true ∨ isNan B = true) :
    f32Lt A B = false ∧ f32Eq A B = false ∧ f32Lt B A = false := by
  rcases h with h | h <;> simp [f32Lt, f32Eq, h]

/-- Settles O55: the order of the extended values is linear. -/
theorem mfOrderOnNonNan : Obligations.MfOrderOnNonNan := by
  refine ⟨fun A B => comparisons_of_isNan, fun A B hA hB => ?_, fun A B hA hB => ?_, fun A B C hAB hBC => ?_, rfl⟩
  · simp only [← Bool.not_eq_true, f32Lt_iff, f32Eq_iff, hA, hB, true_and]
    rcases lt_trichotomy (extVal A) (extVal B) with hlt | heq | hgt
    · exact .inl ⟨hlt, hlt.ne, hlt.not_gt⟩
    · exact .inr (.inl ⟨heq.not_lt, heq, heq.not_gt⟩)
    · exact .inr (.inr ⟨hgt.not_gt, hgt.ne', hgt⟩)
  · rw [f32Le_iff, f32Le_iff]
    exact (le_total (extVal A) (extVal B)).imp (fun hle => ⟨hA, hB, hle⟩) fun hle => ⟨hB, hA, hle⟩
  · rw [f32Le_iff] at hAB hBC ⊢
    obtain ⟨hA, -, hleAB⟩ := hAB
    obtain ⟨-, hC, hleBC⟩ := hBC
    exact ⟨hA, hC, hleAB.trans hleBC⟩

end Sys2Proof.Machine
end

section
/-! # Conversion chains between the minifloat formats

A chain is MF.FROMRAW of one format followed by MF.TORAW of another (44_format_converter_chain.md R234). Whether it
faults, and the fields of the pattern it ends in, follow from the decoder's fields for every pair of formats; a widening
chain (R235) and a narrowing one (R236) differ only in what becomes of the mantissa. -/

namespace Sys2Proof.Machine

/-! ### The chain of any two formats -/

/-- The number of the pattern in `Y` that the chain makes of the pattern `n` of `X`: the sign moved, and, unless `n` is
a zero, the exponent re-biased and the mantissa put through the 23-bit field. -/
def chainNumber (X Y : Format) (n : Nat) : Nat :=
  n / 2 ^ (X.M + X.E) * 2 ^ (Y.M + Y.E) +
    if n % 2 ^ (X.M + X.E) = 0 then 0
    else (n / 2 ^ X.M % 2 ^ X.E + bias X.E - bias Y.E) * 2 ^ Y.M + n % 2 ^ X.M * 2 ^ (23 - X.M) / 2 ^ (23 - Y.M)

/-- The pattern `n` of `X` is a zero, or its binary32 exponent lies in the window of `Y`. -/
def ChainFits (X Y : Format) (n : Nat) : Prop :=
  n % 2 ^ (X.M + X.E) = 0 ∨
    (bias Y.E ≤ n / 2 ^ X.M % 2 ^ X.E + bias X.E ∧ n / 2 ^ X.M % 2 ^ X.E + bias X.E < bias Y.E + 2 ^ Y.E)

section
variable {X Y : Format} {p : Word} (hp : p.toNat < 2 ^ X.W)
include hp

theorem isZero_decodePattern_iff : isZero (decodePattern X p) = true ↔ p.toNat % 2 ^ (X.M + X.E) = 0 := by
  rw [isZero_iff]
  refine ⟨fun hzero => ?_, fields_decodePattern_of_eq_zero hp⟩
  by_contra hlow
  have hbias := bias_bounds X.E_le
  have hwindow := ex_decodePattern_mem_window hp hlow
  omega

/-- A chain that gives a pattern gives the one of the moved fields. -/
theorem toNat_of_toRaw_decodePattern {q : Word} (hq : toRaw Y.M Y.E (decodePattern X p) = .ok q) :
    q.toNat = chainNumber X Y p.toNat := by
  obtain ⟨e, m, -, -, hnum, hcases⟩ := fields_of_toRaw_eq_ok hq
  have hbias := bias_bounds X.E_le
  have hbias' := bias_bounds Y.E_le
  rw [hnum, packFields, toNat_sgn_decodePattern hp, chainNumber]
  by_cases hlow : p.toNat % 2 ^ (X.M + X.E) = 0
  · obtain ⟨hex, -⟩ := fields_decodePattern_of_eq_zero hp hlow
    obtain ⟨-, -, rfl, rfl⟩ | ⟨hex', -⟩ := hcases
    · rw [if_pos hlow, Nat.zero_mul]
    · omega
  · obtain ⟨hex, hfr⟩ := fields_decodePattern_of_ne_zero hp hlow
    obtain ⟨hex', -⟩ | ⟨hex', rfl⟩ := hcases
    · omega
    · rw [if_neg hlow, ← hex, hex', hfr, Nat.add_sub_cancel, Nat.add_assoc]

/-- The chain does not fault on a pattern that fits. -/
theorem toRaw_decodePattern_of_fits (h : ChainFits X Y p.toNat) :
    ∃ q, toRaw Y.M Y.E (decodePattern X p) = .ok q := by
  rw [toRaw_eq Y.M_le Y.E_le]
  split_ifs with hzero hwindow
  · exact ⟨_, rfl⟩
  · rw [isZero_decodePattern_iff hp] at hzero
    obtain ⟨hex, -⟩ := fields_decodePattern_of_ne_zero hp hzero
    obtain hlow | hfits := h
    · exact absurd hlow hzero
    · omega
  · exact ⟨_, rfl⟩

/-- On a pattern that does not fit the chain ends in ENCODE_RANGE. -/
theorem toRaw_decodePattern_of_not_fits (h : ¬ ChainFits X Y p.toNat) :
    toRaw Y.M Y.E (decodePattern X p) = .fault .encodeRange := by
  obtain ⟨hlow, hwindow⟩ := not_or.1 h
  obtain ⟨hex, -⟩ := fields_decodePattern_of_ne_zero hp hlow
  have hpos : 0 < 2 ^ Y.E := by positivity
  rw [toRaw_eq Y.M_le Y.E_le, if_neg (mt (isZero_decodePattern_iff hp).1 hlow), if_pos (by omega)]

/-- The chain's second request, on a pattern that fits. -/
theorem gives_torawOp_of_fits (h : ChainFits X Y p.toNat) (s : State) (b : Word) :
    Gives (torawOp Y) s (decodePattern X p) b (BitVec.ofNat 32 (chainNumber X Y p.toNat)) := by
  obtain ⟨q, hq⟩ := toRaw_decodePattern_of_fits hp h
  rw [← toNat_of_toRaw_decodePattern hp hq, BitVec.ofNat_toNat, BitVec.setWidth_eq]
  exact (gives_torawOp_iff Y s _ b q).2 hq

end

/-- Every pattern fits where the window of the source lies inside the window of the target. -/
theorem chainFits_of_window {X Y : Format} (hlo : bias Y.E ≤ bias X.E)
    (hhi : bias X.E + 2 ^ X.E ≤ bias Y.E + 2 ^ Y.E) (n : Nat) : ChainFits X Y n := by
  have hlt : n / 2 ^ X.M % 2 ^ X.E < 2 ^ X.E := Nat.mod_lt _ (by positivity)
  exact .inr (by omega)

/-! ### The mantissa through the 23-bit field -/

/-- Into a mantissa that is not shorter it is shifted left (44_format_converter_chain.md R235). -/
theorem mantissa_widened {M N : Nat} (h : M ≤ N) (hN : N ≤ 23) (m : Nat) :
    m * 2 ^ (23 - M) / 2 ^ (23 - N) = m * 2 ^ (N - M) := by
  rw [← Nat.sub_add_sub_cancel hN h, Nat.add_comm, pow_add, ← Nat.mul_assoc, Nat.mul_div_cancel _ (by positivity)]

/-- Into a mantissa that is not longer it is cut off below (44_format_converter_chain.md R236). -/
theorem mantissa_narrowed {M N : Nat} (h : N ≤ M) (hM : M ≤ 23) (m : Nat) :
    m * 2 ^ (23 - M) / 2 ^ (23 - N) = m / 2 ^ (M - N) := by
  rw [← Nat.sub_add_sub_cancel hM h, Nat.add_comm, pow_add, Nat.mul_div_mul_right _ _ (by positivity)]

/-! ### Widening -/

/-- The exponent window and the mantissa of `X` lie inside those of `Y` (44_format_converter_chain.md R235). -/
structure Widens (X Y : Format) : Prop where
  mantissa : X.M ≤ Y.M
  low : bias Y.E ≤ bias X.E
  high : bias X.E + 2 ^ X.E ≤ bias Y.E + 2 ^ Y.E

section
variable {X Y : Format} (hwide : Widens X Y) {p : Word} (hp : p.toNat < 2 ^ X.W)
include hwide hp

/-- The encoder drops no mantissa bit of a decoded pattern of the narrower format. -/
theorem two_pow_dvd_fr_decodePattern_of_widens : 2 ^ (23 - Y.M) ∣ fr (decodePattern X p) := by
  by_cases hlow : p.toNat % 2 ^ (X.M + X.E) = 0
  · obtain ⟨-, hfr⟩ := fields_decodePattern_of_eq_zero hp hlow
    exact hfr ▸ Nat.dvd_zero _
  · obtain ⟨-, hfr⟩ := fields_decodePattern_of_ne_zero hp hlow
    exact hfr ▸ (Nat.pow_dvd_pow 2 (Nat.sub_le_sub_left hwide.mantissa 23)).mul_left _

/-- No decoded pattern of the narrower format collides with zero in the wider one (42_minifloat_encoder.md R176): the
collision's exponent and mantissa are spelled by the zero pattern alone, which decodes to a zero. -/
theorem not_collides_of_widens :
    ¬ (ex (decodePattern X p) = bias Y.E ∧ fr (decodePattern X p) < 2 ^ (23 - Y.M)) := by
  rintro ⟨hex, hfr⟩
  have hbias := bias_bounds Y.E_le
  have hnofr := Nat.eq_zero_of_dvd_of_lt (two_pow_dvd_fr_decodePattern_of_widens hwide hp) hfr
  by_cases hlow : p.toNat % 2 ^ (X.M + X.E) = 0
  · obtain ⟨hzero, -⟩ := fields_decodePattern_of_eq_zero hp hlow
    omega
  · obtain ⟨hex', hfr'⟩ := fields_decodePattern_of_ne_zero hp hlow
    have hexp : p.toNat / 2 ^ X.M % 2 ^ X.E = 0 := by
      have hle := hwide.low
      omega
    have hman : p.toNat % 2 ^ X.M = 0 := by simpa [hnofr] using hfr'.symm
    exact hlow (by rw [mod_two_pow_add, hexp, hman, Nat.zero_mul])

/-- A widened pattern decodes to the binary32 that it was encoded from. -/
theorem decodePattern_of_widens {q : Word} (hq : toRaw Y.M Y.E (decodePattern X p) = .ok q) :
    decodePattern Y q = decodePattern X p := by
  obtain ⟨-, hsgn, hfields⟩ := decodePattern_of_toRaw_eq_ok hq
  rw [if_neg (not_collides_of_widens hwide hp),
    Nat.div_mul_cancel (two_pow_dvd_fr_decodePattern_of_widens hwide hp)] at hfields
  obtain ⟨hex, hfr⟩ := hfields
  exact eq_of_fields hsgn hex hfr

end

/-- Settles O42: the window and the mantissa of each source lie inside those of its target. -/
theorem wideningChainsExact : Obligations.WideningChainsExact := by
  intro X Y hpair s p b hp
  have hwide : Widens X Y := by
    obtain ⟨rfl, rfl⟩ | ⟨rfl, rfl⟩ | ⟨rfl, rfl⟩ := hpair <;> exact ⟨by decide, by decide, by decide⟩
  obtain ⟨q, hq⟩ := toRaw_decodePattern_of_fits hp (chainFits_of_window hwide.low hwide.high _)
  obtain ⟨hqlt, -⟩ := decodePattern_of_toRaw_eq_ok hq
  refine ⟨_, q, gives_fromrawOp hp s b, (gives_torawOp_iff Y s _ b q).2 hq,
    decodePattern_of_widens hwide hp hq ▸ gives_fromrawOp hqlt s b, ?_⟩
  rw [toNat_of_toRaw_decodePattern hp hq, chainNumber, mantissa_widened hwide.mantissa Y.M_le]

/-! ### Narrowing -/

/-- From float24 to float20 the fields keep their order and the low 4 bits go. -/
theorem chainNumber_f24_f20 (n : Nat) : chainNumber .f24 .f20 n = n / 16 := by
  rw [chainNumber, mantissa_narrowed (by decide) (by decide)]
  simp only [Format.M, Format.E, Nat.add_sub_cancel]
  split <;> omega

/-- In float16 fit the zeros and the exponent fields 48 to 79 of a format with 7 exponent bits. -/
theorem chainFits_f16_iff {X : Format} (hE : X.E = 7) (n : Nat) :
    ChainFits X .f16 n ↔
      n % 2 ^ (X.M + X.E) = 0 ∨ (48 ≤ n / 2 ^ X.M % 2 ^ X.E ∧ n / 2 ^ X.M % 2 ^ X.E ≤ 79) := by
  have hbias : bias X.E = 64 := by rw [hE]; rfl
  have hbias' : bias Format.f16.E = 112 := rfl
  have hpow : 2 ^ Format.f16.E = 32 := rfl
  rw [ChainFits, hbias, hbias', hpow]
  omega

/-- Into float16 the exponent loses the distance 48 of the two windows, and the mantissa all but its top 10 bits. -/
theorem chainNumber_f16 {X : Format} (hE : X.E = 7) (hM : 10 ≤ X.M) (n : Nat) :
    chainNumber X .f16 n = n / 2 ^ (X.M + X.E) * 2 ^ 15 +
      if n % 2 ^ (X.M + X.E) = 0 then 0
      else (n / 2 ^ X.M % 2 ^ X.E - 48) * 2 ^ 10 + n % 2 ^ X.M / 2 ^ (X.M - 10) := by
  have hbias : bias X.E = 64 := by rw [hE]; rfl
  have hbias' : bias Format.f16.E = 48 + 64 := rfl
  rw [chainNumber, mantissa_narrowed (N := Format.f16.M) hM X.M_le, hbias, hbias', Nat.add_sub_add_right]
  rfl

/-- Settles O43: the windows of float24 and float20 are one, and float16's lies 48 exponents above their start. -/
theorem narrowingChainsTruncate : Obligations.NarrowingChainsTruncate := by
  refine ⟨fun s p b hp => ⟨_, gives_fromrawOp (f := .f24) hp s b, ?_⟩, fun X hX s p b hp => ?_⟩
  · rw [← chainNumber_f24_f20]
    exact gives_torawOp_of_fits (X := .f24) (Y := .f20) hp (chainFits_of_window le_rfl le_rfl _) s b
  · have hE : X.E = 7 := by obtain rfl | rfl := hX <;> rfl
    have hM : 10 ≤ X.M := by obtain rfl | rfl := hX <;> decide
    have hfits := chainFits_f16_iff hE p.toNat
    refine ⟨_, gives_fromrawOp hp s b, ?_⟩
    split_ifs with hlow hwindow
    · have hgives := gives_torawOp_of_fits hp (hfits.2 (.inl hlow)) s b
      rwa [chainNumber_f16 hE hM, if_pos hlow, Nat.add_zero] at hgives
    · have hgives := gives_torawOp_of_fits hp (hfits.2 (.inr hwindow)) s b
      rwa [chainNumber_f16 hE hM, if_neg hlow, ← Nat.add_assoc] at hgives
    · exact answersFault_torawOp (f := .f16)
        (toRaw_decodePattern_of_not_fits hp (mt hfits.1 (not_or.2 ⟨hlow, hwindow⟩)))

end Sys2Proof.Machine
end

section
/-! # Which cause a request reports

R253 orders the checks: the command byte, the operands, the operation's own condition. `requestFault` is that order for a
request whose byte is an operation, and every response is shown to carry exactly that fault; the next state of a step
then reports it (60_exceptions.md R251 to R254, R258). -/

namespace Sys2Proof.Machine

/-! ### The fault that a response carries -/

/-- The fault of a response, if it is one (60_exceptions.md R252). -/
def Response.cause : Response → Option Fault
  | .ok _ => none
  | .anyNan => none
  | .fault c => some c

@[simp] theorem cause_ok (y : Word) : (Response.ok y).cause = none := rfl

@[simp] theorem cause_anyNan : Response.anyNan.cause = none := rfl

@[simp] theorem cause_fault (c : Fault) : (Response.fault c).cause = some c := rfl

theorem cause_of_ne_fault {r : Response} (h : ∀ c, r ≠ .fault c) : r.cause = none := by
  cases r with
  | ok y => rfl
  | anyNan => rfl
  | fault c => exact absurd rfl (h c)

/-- What the next state `t` of `s` reports: the fault, or none (60_exceptions.md R251, R252). -/
def Reports (s t : State) : Option Fault → Prop
  | some c => FaultedFrom s c.code t
  | none => t.err = 0#1 ∧ t.cause = 0#3

/-- Driving a response reports the fault that it carries. -/
theorem answer_reports (s : State) (cmd : Byte) (r : Response) :
    ∃ t, s.answer cmd r = .next t ∧ Reports s t r.cause := by
  cases r with
  | ok y => exact ⟨_, rfl, rfl, rfl⟩
  | anyNan => exact ⟨_, rfl, rfl, rfl⟩
  | fault c => exact ⟨_, rfl, faultedFrom_driveFault s cmd c⟩

/-- An operation whose response carries no fault answers some word. -/
theorem exists_answersOk_of_cause_eq_none {i : Instr} {s : State} (h : (responseOf s.config s.a s.b i).cause = none) :
    ∃ y, AnswersOk i s y := by
  cases hr : responseOf s.config s.a s.b i with
  | ok y => exact ⟨y, answersOk_of_responseOf hr⟩
  | anyNan => exact ⟨_, answersOk_draw hr⟩
  | fault c => simp [hr] at h

/-! ### The order of the checks -/

/-- The last check of a request: what the operation itself does not take (60_exceptions.md R252, R253). -/
def ownFault (i : Instr) (a b : Word) : Option Fault :=
  if i = .fxDiv ∧ b.toNat % 2 ^ 16 = 0 then some .divByZero
  else if i = .fxFromfloat ∧ isFinite a = false then some .floatNotFinite
  else match torawFormat i with
    | some f =>
      if isZero a = false ∧ ¬ (bias f.E ≤ ex a ∧ ex a ≤ bias f.E + 2 ^ f.E - 1) then some .encodeRange else none
    | none => none

/-- The checks of a request whose byte is an operation, in their order (60_exceptions.md R253). -/
def requestFault (i : Instr) (a b : Word) : Option Fault :=
  if requestWellFormed i a b = false then some .operandRange else ownFault i a b

/-- The operations whose only fault, if any, is OPERAND_RANGE (60_exceptions.md R252). -/
abbrev NoOwnFault (i : Instr) : Prop := i ≠ .fxDiv ∧ i ≠ .fxFromfloat ∧ torawFormat i = none

/-- Every port that the operation reads is read whole (30_encoding.md R63). -/
abbrev ReadsWholePorts (i : Instr) : Prop := (∀ t ∈ i.signature.a, t.width = 32) ∧ ∀ t ∈ i.signature.b, t.width = 32

theorem ownFault_of_noOwnFault {i : Instr} (h : NoOwnFault i) (a b : Word) : ownFault i a b = none := by
  obtain ⟨hdiv, hfloat, htoraw⟩ := h
  simp [ownFault, hdiv, hfloat, htoraw]

theorem portJustified_of_width {o : Option ValueType} (h : ∀ t ∈ o, t.width = 32) (p : Word) :
    portJustified o p = true := by
  cases o with
  | none => rfl
  | some t => simpa [portJustified, justified, h t rfl] using p.isLt

/-- No operand can be above its width where the ports are read whole (30_encoding.md R64). -/
theorem requestWellFormed_of_readsWholePorts {i : Instr} (h : ReadsWholePorts i) (a b : Word) :
    requestWellFormed i a b = true := by
  obtain ⟨ha, hb⟩ := h
  simp [requestWellFormed, portJustified_of_width ha, portJustified_of_width hb]

theorem requestFault_of_readsWholePorts {i : Instr} (h : ReadsWholePorts i) (a b : Word) :
    requestFault i a b = ownFault i a b := by
  rw [requestFault, requestWellFormed_of_readsWholePorts h, if_neg (by decide)]

theorem requestFault_eq_none {i : Instr} (hports : ReadsWholePorts i) (hown : NoOwnFault i) (a b : Word) :
    requestFault i a b = none :=
  (requestFault_of_readsWholePorts hports a b).trans (ownFault_of_noOwnFault hown a b)

/-! ### The checks in the model -/

/-- An operand that is not justified is OPERAND_RANGE, and nothing of the operation is looked at
(30_encoding.md R64). -/
theorem cause_withOperand (t : ValueType) (p : Word) (k : BitVec t.width → Response) :
    (withOperand t.width p k).cause =
      if justified t p = false then some .operandRange else (k (p.setWidth t.width)).cause := by
  rw [withOperand_eq]
  by_cases h : p.toNat < 2 ^ t.width
  · simp [justified, h]
  · simp [justified, h]

/-- The check of one port, for an operation that reads no other. -/
theorem cause_onePort {i : Instr} {t : ValueType} {a b : Word} {k : BitVec t.width → Response}
    (hsig : i.signature.a = some t ∧ i.signature.b = none)
    (hk : (k (a.setWidth t.width)).cause = ownFault i a b) :
    (withOperand t.width a k).cause = requestFault i a b := by
  obtain ⟨ha, hb⟩ := hsig
  rw [cause_withOperand, hk, requestFault, requestWellFormed, ha, hb, portJustified, portJustified, Bool.and_true]

/-- The checks of two ports: either of them raises the same fault. -/
theorem cause_twoPorts {i : Instr} {t u : ValueType} {a b : Word} {k : BitVec t.width → BitVec u.width → Response}
    (hsig : i.signature.a = some t ∧ i.signature.b = some u)
    (hk : (k (a.setWidth t.width) (b.setWidth u.width)).cause = ownFault i a b) :
    (withOperand t.width a fun A => withOperand u.width b fun B => k A B).cause = requestFault i a b := by
  obtain ⟨ha, hb⟩ := hsig
  rw [cause_withOperand, cause_withOperand, hk, requestFault, requestWellFormed, ha, hb, portJustified, portJustified]
  cases justified t a <;> simp

/-- An operation that reads whole ports and has no fault of its own has none at all (60_exceptions.md R252). -/
theorem cause_wholePorts {i : Instr} {r : Response} {a b : Word} (hr : ∀ c, r ≠ .fault c) (hports : ReadsWholePorts i)
    (hown : NoOwnFault i) : r.cause = requestFault i a b :=
  (cause_of_ne_fault hr).trans (requestFault_eq_none hports hown a b).symm

/-- The decoder raises nothing but OPERAND_RANGE (41_minifloat_decoder.md R151). -/
theorem cause_fromrawOp (f : Format) (a b : Word) (k : BitVec f.W → Word) :
    (withOperand f.W a fun bits => .ok (k bits)).cause = requestFault (fromrawOp f) a b :=
  have hsig : (fromrawOp f).signature.a = some (.mfraw f) ∧ (fromrawOp f).signature.b = none := by
    cases f <;> exact ⟨rfl, rfl⟩
  have hown : NoOwnFault (fromrawOp f) := by cases f <;> decide
  cause_onePort (t := .mfraw f) hsig (ownFault_of_noOwnFault hown a b).symm

/-! ### The operations with a fault of their own -/

/-- DIV_BY_ZERO is raised by the low half of port `b` (40_fixed_point_12_4.md R112). -/
theorem cause_fxDiv (A : Fx) (a b : Word) : (fxDiv A (b.setWidth 16)).cause = ownFault .fxDiv a b := by
  have hzero : b.setWidth 16 = 0#16 ↔ b.toNat % 2 ^ 16 = 0 := by
    rw [← BitVec.toNat_inj, BitVec.toNat_setWidth, BitVec.toNat_ofNat, Nat.zero_mod]
  rw [fxDiv_eq, ownFault]
  by_cases h : b.toNat % 2 ^ 16 = 0
  · rw [if_pos (hzero.2 h), if_pos ⟨rfl, h⟩, cause_fault]
  · rw [if_neg (mt hzero.1 h), if_neg fun hdiv => h hdiv.2, cause_ok]
    rfl

/-- FLOAT_NOT_FINITE is raised by an infinity or a NaN (40_fixed_point_12_4.md R104). -/
theorem cause_fxFromFloat (ties : RoundTies) (a b : Word) :
    (fxFromFloat ties a).cause = requestFault .fxFromfloat a b := by
  rw [requestFault_of_readsWholePorts (by decide)]
  by_cases h : isFinite a = true
  · simp [fxFromFloat, ownFault, h, torawFormat]
  · simp [fxFromFloat, ownFault, h]

/-- ENCODE_RANGE is raised by a non-zero pattern outside the window of exponents (42_minifloat_encoder.md R172). -/
theorem cause_torawOp (f : Format) (a b : Word) : (toRaw f.M f.E a).cause = requestFault (torawOp f) a b := by
  have hports : ReadsWholePorts (torawOp f) := by cases f <;> decide
  have hown : ownFault (torawOp f) a b =
      if isZero a = false ∧ ¬ (bias f.E ≤ ex a ∧ ex a ≤ bias f.E + 2 ^ f.E - 1) then some .encodeRange else none := by
    cases f <;> rfl
  have hwindow : (ex a < bias f.E ∨ bias f.E + 2 ^ f.E - 1 < ex a) ↔
      ¬ (bias f.E ≤ ex a ∧ ex a ≤ bias f.E + 2 ^ f.E - 1) := by omega
  rw [toRaw_eq f.M_le f.E_le, requestFault_of_readsWholePorts hports, hown]
  simp only [hwindow]
  by_cases hzero : isZero a = true
  · simp [hzero]
  · simp only [hzero, Bool.false_eq_true, if_false, true_and]
    split <;> rfl

/-! ### Every operation -/

/-- Every operation carries the fault that the checks report, and no other (60_exceptions.md R252, R253). -/
theorem cause_responseOf (config : Config) (a b : Word) (i : Instr) :
    (responseOf config a b i).cause = requestFault i a b := by
  cases i with
  | fxZero | mfZeroF24 | mfZeroF20 | mfZeroF16 | mfFromf32F24 | mfFromf32F20 | mfFromf32F16 | mfNegF24 | mfNegF20 | mfNegF16
  | mfLtF24 | mfLtF20 | mfLtF16 | mfLeF24 | mfLeF20 | mfLeF16 | mfGtF24 | mfGtF20 | mfGtF16 | mfGeF24 | mfGeF20
  | mfGeF16 | mfEqF24 | mfEqF20 | mfEqF16 | mfNeF24 | mfNeF20 | mfNeF16 =>
    exact cause_wholePorts nofun (by decide) (by decide)
  | mfAddF24 | mfAddF20 | mfAddF16 => exact cause_wholePorts (f32Add_ne_fault a b) (by decide) (by decide)
  | mfSubF24 | mfSubF20 | mfSubF16 => exact cause_wholePorts (f32Sub_ne_fault a b) (by decide) (by decide)
  | mfMulF24 | mfMulF20 | mfMulF16 => exact cause_wholePorts (mfMul_ne_fault a b) (by decide) (by decide)
  | mfDivF24 | mfDivF20 | mfDivF16 => exact cause_wholePorts (f32Div_ne_fault a b) (by decide) (by decide)
  | fxFromraw | fxInt | fxFrac | fxFloor | fxCeil =>
    rw [responseOf]
    exact cause_onePort (t := .fx) ⟨rfl, rfl⟩ (ownFault_of_noOwnFault (by decide) a b).symm
  | fxFromint =>
    rw [responseOf]
    exact cause_twoPorts (t := .i16) (u := .u16) ⟨rfl, rfl⟩ (ownFault_of_noOwnFault (by decide) a b).symm
  | fxAdd | fxSub | fxMul | fxLt | fxLe | fxGt | fxGe | fxEq | fxNe =>
    rw [responseOf]
    exact cause_twoPorts (t := .fx) (u := .fx) ⟨rfl, rfl⟩ (ownFault_of_noOwnFault (by decide) a b).symm
  | fxDiv =>
    rw [responseOf]
    exact cause_twoPorts (t := .fx) (u := .fx) ⟨rfl, rfl⟩ (cause_fxDiv _ a b)
  | fxFromfloat => exact cause_fxFromFloat _ a b
  | mfFromrawF24 => exact cause_fromrawOp .f24 a b _
  | mfFromrawF20 => exact cause_fromrawOp .f20 a b _
  | mfFromrawF16 => exact cause_fromrawOp .f16 a b _
  | mfTorawF24 => exact cause_torawOp .f24 a b
  | mfTorawF20 => exact cause_torawOp .f20 a b
  | mfTorawF16 => exact cause_torawOp .f16 a b

/-- The next state of an operation reports what the checks report. -/
theorem exec_reports (i : Instr) (s : State) : ∃ t, exec i s = .next t ∧ Reports s t (requestFault i s.a s.b) := by
  rw [exec_eq, ← cause_responseOf s.config]
  exact answer_reports s _ _

/-! ### The obligations -/

/-- Settles O13: these operations read whole ports and have no fault of their own. -/
theorem neverFaultingOperations : Obligations.NeverFaultingOperations := by
  intro i hi s
  have hchecks : ReadsWholePorts i ∧ NoOwnFault i := by
    revert i
    decide
  obtain ⟨hports, hown⟩ := hchecks
  apply exists_answersOk_of_cause_eq_none
  rw [cause_responseOf, requestFault_eq_none hports hown]

/-- Settles O12: a reserved byte is rejected; for an operation the statement's conditions are the branches of
`requestFault`. -/
theorem faultCausesAndPriority : Obligations.FaultCausesAndPriority := by
  intro s
  obtain ⟨i, hdec, hstep⟩ | ⟨e, hdec, hstep⟩ := step_cases s
  · obtain ⟨t, ht, hreports⟩ := exec_reports i s
    have hlegal : ¬ ReservedByte s.cmd := fun h => (reservedByte_iff s.cmd).1 h i hdec
    refine ⟨t, hstep.trans ht, .inr ⟨i, hlegal, hdec, ?_⟩⟩
    rw [requestFault, ownFault] at hreports
    split_ifs at hreports ⊢ with hrange hdiv hfloat
    · exact hreports
    · exact hreports
    · exact hreports
    · cases hformat : torawFormat i with
      | none =>
        simp only [hformat] at hreports ⊢
        exact hreports
      | some f =>
        simp only [hformat] at hreports ⊢
        split_ifs at hreports ⊢ with hwindow
        · exact hreports
        · exact hreports
  · have hreserved : ReservedByte s.cmd := (reservedByte_iff s.cmd).2 (by simp [hdec])
    exact ⟨_, hstep, .inl ⟨hreserved, faultedFrom_driveFault s s.cmd .illegalOp⟩⟩

/-- Settles O10: no step writes the configuration, and nothing else of the state reaches the response to the next
request; so the request after a fault, like that after any other response, is answered as if presented before it. -/
theorem faultLeavesNoTrace : Obligations.FaultLeavesNoTrace := by
  intro s t cmd a b ht _
  obtain ⟨-, -, -, hconfig, -⟩ := requestPortsAndConfigKept s t ht
  exact responseDependsOnRequestAlone (t.present cmd a b) (s.present cmd a b) rfl rfl rfl hconfig

end Sys2Proof.Machine
end

section
/-! # Runs of requests

A line has three outcomes, said once by `line_cases`: it is refused for an unset temporary, it binds `y`, or it ends the
run in a fault; what a list of lines does follows by induction on the list (70_reset_and_hazards.md R289;
60_exceptions.md R251; 30_encoding.md R80). -/

namespace Sys2Proof.Machine

/-! ### One request -/

/-- No operation reports ILLEGAL_OP (60_exceptions.md R252). -/
theorem requestFault_ne_illegalOp (i : Instr) (a b : Word) : requestFault i a b ≠ some .illegalOp := by
  rw [← cause_responseOf Config.default]
  have hfits := responseOf_fits Config.default a b i
  cases hr : responseOf Config.default a b i with
  | ok y => simp
  | anyNan => simp
  | fault c => simpa [hr] using hfits

/-- Every step reports a fault or none, and ILLEGAL_OP at a reserved byte alone (60_exceptions.md R251, R252). -/
theorem step_reports (s : State) :
    ∃ t f, step s = .next t ∧ Reports s t f ∧ (f = some .illegalOp ↔ ∀ i, decode s.cmd ≠ .ok i) := by
  obtain ⟨i, hdec, hstep⟩ | ⟨e, hdec, hstep⟩ := step_cases s
  · obtain ⟨t, ht, hreports⟩ := exec_reports i s
    exact ⟨t, _, hstep.trans ht, hreports, fun h => absurd h (requestFault_ne_illegalOp i s.a s.b),
      fun h => absurd hdec (h i)⟩
  · exact ⟨_, some .illegalOp, hstep, faultedFrom_driveFault s s.cmd .illegalOp, by simp [hdec]⟩

/-- The host ends the run at a faulted response (60_exceptions.md R251). -/
theorem receive_of_faultedFrom (r : HostRun) (dest : Nat) {s t : State} {c : Fault} (h : FaultedFrom s c.code t) :
    r.receive dest t = .fault c := by
  obtain ⟨y, rfl⟩ := h
  exact receive_fault r dest _ c rfl rfl

/-! ### One line -/

/-- A source that is not set names a temporary that nothing wrote. -/
theorem exists_sourceValue_eq_error {temps : Temps} {src : Source}
    (h : ¬ sourceSet (temps.map Prod.fst) src = true) : ∃ k, sourceValue temps src = .error k := by
  rw [← sourceValue_ok_iff] at h
  cases hv : sourceValue temps src with
  | ok w => exact absurd ⟨w, hv⟩ h
  | error k => exact ⟨k, rfl⟩

/-- A line that reads an unset temporary is refused. -/
theorem line_of_unset {r : HostRun} {l : Line}
    (h : ¬ (sourceSet (r.temps.map Prod.fst) l.a = true ∧ sourceSet (r.temps.map Prod.fst) l.b = true)) :
    ∃ k, r.line l = .refused (.unsetTemporary k) := by
  cases ha : sourceValue r.temps l.a with
  | error k => exact ⟨k, by simp [HostRun.line, ha]⟩
  | ok a =>
    have hset : sourceSet (r.temps.map Prod.fst) l.a = true := (sourceValue_ok_iff _ _).1 ⟨a, ha⟩
    obtain ⟨k, hb⟩ := exists_sourceValue_eq_error fun hb => h ⟨hset, hb⟩
    exact ⟨k, by simp [HostRun.line, ha, hb]⟩

/-- A line whose sources are set binds `y` to its destination, or ends the run in a fault, which is ILLEGAL_OP at a
reserved byte alone. -/
theorem line_of_set {r : HostRun} {l : Line} (ha : sourceSet (r.temps.map Prod.fst) l.a = true)
    (hb : sourceSet (r.temps.map Prod.fst) l.b = true) :
    (∃ t : State, r.line l =
      .next { machine := t, temps := (l.dest, t.y) :: r.temps, results := r.results ++ [t.y] }) ∨
    (∃ c, r.line l = .fault c ∧ (c = .illegalOp → ∀ i, decode l.cmd ≠ .ok i)) := by
  obtain ⟨a, ha⟩ := (sourceValue_ok_iff _ _).2 ha
  obtain ⟨b, hb⟩ := (sourceValue_ok_iff _ _).2 hb
  obtain ⟨t, f, ht, hreports, hillegal⟩ := step_reports (r.machine.present l.cmd a b)
  rw [line_eq r l ha hb ht]
  cases f with
  | none =>
    obtain ⟨herr, -⟩ := hreports
    exact .inl ⟨t, receive_ok r l.dest t herr⟩
  | some c => exact .inr ⟨c, receive_of_faultedFrom r l.dest hreports, fun hc => hillegal.1 (congrArg some hc)⟩

/-- Everything a line can do. -/
theorem line_cases (r : HostRun) (l : Line) :
    (∃ k, r.line l = .refused (.unsetTemporary k)) ∨
    (∃ t : State, r.line l =
      .next { machine := t, temps := (l.dest, t.y) :: r.temps, results := r.results ++ [t.y] }) ∨
    (∃ c, r.line l = .fault c ∧ (c = .illegalOp → ∀ i, decode l.cmd ≠ .ok i)) := by
  by_cases h : sourceSet (r.temps.map Prod.fst) l.a = true ∧ sourceSet (r.temps.map Prod.fst) l.b = true
  · obtain ⟨ha, hb⟩ := h
    exact .inr (line_of_set ha hb)
  · exact .inl (line_of_unset h)

/-- A line that ends normally adds one result. -/
theorem length_results_of_line {r r' : HostRun} {l : Line} (h : r.line l = .next r') :
    r'.results.length = r.results.length + 1 := by
  obtain ⟨k, hline⟩ | ⟨t, hline⟩ | ⟨c, hline, -⟩ := line_cases r l
  · simp [hline] at h
  · rw [hline] at h
    cases h
    simp
  · simp [hline] at h

/-! ### Lists of lines -/

/-- A list of lines ends normally where its first line does and then the others do. -/
theorem lines_cons_eq_next_iff (r r' : HostRun) (l : Line) (ls : List Line) :
    r.lines (l :: ls) = .next r' ↔ ∃ q, r.line l = .next q ∧ q.lines ls = .next r' := by
  cases h : r.line l <;> simp [HostRun.lines, h]

/-- A list of lines faults at its first line, or at a later one after the first ended normally. -/
theorem lines_cons_eq_fault_iff (r : HostRun) (c : Fault) (l : Line) (ls : List Line) :
    r.lines (l :: ls) = .fault c ↔ r.line l = .fault c ∨ ∃ q, r.line l = .next q ∧ q.lines ls = .fault c := by
  cases h : r.line l <;> simp [HostRun.lines, h]

theorem lines_cons_of_next {r q : HostRun} {l : Line} (h : r.line l = .next q) (ls : List Line) :
    r.lines (l :: ls) = q.lines ls := by
  simp [HostRun.lines, h]

theorem lines_append_of_next {r r' : HostRun} {ls : List Line} (ms : List Line) (h : r.lines ls = .next r') :
    r.lines (ls ++ ms) = r'.lines ms := by
  induction ls generalizing r with
  | nil => cases h; rfl
  | cons l ls ih =>
    obtain ⟨q, hline, hrest⟩ := (lines_cons_eq_next_iff r r' l ls).1 h
    exact (lines_cons_of_next hline _).trans (ih hrest)

theorem lines_append_of_fault {r : HostRun} {c : Fault} {ls : List Line} (ms : List Line) (h : r.lines ls = .fault c) :
    r.lines (ls ++ ms) = .fault c := by
  induction ls generalizing r with
  | nil => cases h
  | cons l ls ih =>
    exact (lines_cons_eq_fault_iff r c l (ls ++ ms)).2 <|
      ((lines_cons_eq_fault_iff r c l ls).1 h).imp_right fun ⟨q, hline, hrest⟩ => ⟨q, hline, ih hrest⟩

/-- The results of a run are one for each line (70_reset_and_hazards.md R289). -/
theorem length_results_of_lines {r r' : HostRun} {ls : List Line} (h : r.lines ls = .next r') :
    r'.results.length = r.results.length + ls.length := by
  induction ls generalizing r with
  | nil => cases h; rfl
  | cons l ls ih =>
    obtain ⟨q, hline, hrest⟩ := (lines_cons_eq_next_iff r r' l ls).1 h
    rw [ih hrest, length_results_of_line hline, List.length_cons, Nat.add_assoc, Nat.add_comm 1]

/-! ### Issuable and well-formed lines -/

theorem linesIssuable_cons_iff (written : List Nat) (l : Line) (ls : List Line) :
    linesIssuable written (l :: ls) = true ↔ (∃ i, decode l.cmd = .ok i) ∧ sourceSet written l.a = true ∧
      sourceSet written l.b = true ∧ linesIssuable (l.dest :: written) ls = true := by
  cases h : decode l.cmd <;> simp [linesIssuable, h, Except.toBool, and_assoc]

theorem lineWellFormed_iff (written : List Nat) (l : Line) :
    lineWellFormed written l = true ↔ ∃ i, decode l.cmd = .ok i ∧
      sourceWellFormed written i.signature.a l.a = true ∧ sourceWellFormed written i.signature.b l.b = true := by
  cases h : decode l.cmd <;> simp [lineWellFormed, h]

/-- A well-formed line carries an operation and reads what is set, so well-formed lines are issuable
(70_reset_and_hazards.md R286). -/
theorem linesIssuable_of_linesWellFormed {written : List Nat} {ls : List Line} (h : linesWellFormed written ls = true) :
    linesIssuable written ls = true := by
  induction ls generalizing written with
  | nil => rfl
  | cons l ls ih =>
    obtain ⟨hline, hrest⟩ := (Bool.and_eq_true _ _).mp h
    obtain ⟨i, hdec, ha, hb⟩ := (lineWellFormed_iff written l).1 hline
    exact (linesIssuable_cons_iff written l ls).2
      ⟨⟨i, hdec⟩, sourceSet_of_wellFormed ha, sourceSet_of_wellFormed hb, ih hrest⟩

/-- Issuable lines run to their end or to a fault of an operation: each binds its destination, so what is set when a
later line is read is what `linesIssuable` counts as written. -/
theorem lines_of_linesIssuable {r : HostRun} {ls : List Line} (h : linesIssuable (r.temps.map Prod.fst) ls = true) :
    (∃ r', r.lines ls = .next r') ∨ (∃ c, c ≠ .illegalOp ∧ r.lines ls = .fault c) := by
  induction ls generalizing r with
  | nil => exact .inl ⟨r, rfl⟩
  | cons l ls ih =>
    obtain ⟨⟨i, hdec⟩, ha, hb, hrest⟩ := (linesIssuable_cons_iff _ l ls).1 h
    obtain ⟨t, hline⟩ | ⟨c, hline, hillegal⟩ := line_of_set ha hb
    · rw [lines_cons_of_next hline]
      exact ih hrest
    · exact .inr ⟨c, fun hc => hillegal hc i hdec, (lines_cons_eq_fault_iff r c l ls).2 (.inl hline)⟩

/-! ### The obligations -/

/-- Settles O57: two lists by induction on the first, the length by the one result of each line, and a line that is read
by what the host makes of its response. -/
theorem runEndsAtFirstFault : Obligations.RunEndsAtFirstFault := by
  refine ⟨fun _ _ _ ms h => lines_append_of_next ms h, fun _ _ _ ms h => lines_append_of_fault ms h,
    fun _ _ _ h => length_results_of_lines h, ?_, ?_⟩
  · intro r l a b c t ha hb ht hfault
    exact (line_eq r l ha hb ht).trans (receive_of_faultedFrom r l.dest hfault)
  · intro r l a b t ha hb ht herr
    exact (line_eq r l ha hb ht).trans (receive_ok r l.dest t herr)

/-- Settles O58. -/
theorem wellFormedRunIsNeverRefused : Obligations.WellFormedRunIsNeverRefused :=
  ⟨fun _ _ h => lines_of_linesIssuable h, fun _ _ h => linesIssuable_of_linesWellFormed h⟩

end Sys2Proof.Machine
end
